-- ==== Sys2Proof/Word.lean ====
section
/-! DEFINITION. The word types of the machine: bytes (V registers, timers, memory), 16-bit words (I, PC, return
addresses, the keypad map, instruction words), nibbles (register numbers) and 12-bit addresses of the encoding. -/

namespace Sys2Proof

/-- `XLEN` = 8 bits: a V register, a timer, a byte of memory (00_scope R6). -/
abbrev Byte := BitVec 8

/-- 16 bits: I, PC, a return address, the keypad map, an instruction word (00_scope R6). -/
abbrev Word := BitVec 16

/-- A 4-bit field of an instruction word: a register number X or Y, or the height N (30_encoding R71). -/
abbrev Nibble := BitVec 4

/-- The 12-bit field NNN (30_encoding R71). -/
abbrev Addr12 := BitVec 12

end Sys2Proof
end

