-- ==== Sys2Proof/Config.lean ====
section
/-! DEFINITION. What an implementation fixes (00_scope R6, R7) and the one free value: the byte the environment presents on
rnd_in when it has lined none up (10_state R38, D20). -/

namespace Sys2Proof

/-- `UNKNOWN_POLICY` (00_scope R7, D7): what a word with no handler does. -/
inductive UnknownPolicy where
  /-- A two-byte no-op with the event UNKNOWN_SKIPPED. -/
  | skip
  /-- The run ends with status HALT_UNKNOWN. -/
  | halt
deriving DecidableEq, Repr

/-- `KEY_INDEX_POLICY` (00_scope R7, D18): what EX9E and EXA1 do when VX > 15. -/
inductive KeyIndexPolicy where
  /-- FATAL_RANGE(KEY_INDEX). -/
  | fault
  /-- The index is VX mod 16. -/
  | mask
deriving DecidableEq, Repr

/-- The build parameters of 00_scope R7 that a step reads. FONT_TABLE, MEM_INIT and FB_INIT are arguments of
`Machine.State.resetWith`; rnd_in is an input. -/
structure Config where
  /-- `UNKNOWN_POLICY`. -/
  unknownPolicy : UnknownPolicy
  /-- `STACK_DEPTH`: `none` is unbounded. -/
  stackDepth : Option Nat
  /-- `OPT_8XY0`: whether 8XY0 is the register copy or an unknown word. -/
  opt8XY0 : Bool
  /-- `KEY_INDEX_POLICY`. -/
  keyIndexPolicy : KeyIndexPolicy
deriving DecidableEq, Repr

/-- The defaults of 00_scope R7. -/
def Config.default : Config :=
  { unknownPolicy := .skip, stackDepth := none, opt8XY0 := true, keyIndexPolicy := .fault }

/-- FREE VALUE (10_state R38, 42_alu R141, D20): the byte on rnd_in at the n-th draw, under no law: any of 0 to 255. It has no
body, so nothing can be proved of a value of it (log entry 5). -/
opaque Config.rndByte : Nat → Byte

/-- `MEM_SIZE` (00_scope R6). -/
def memSize : Nat := 4096

/-- `PROG_BASE` (00_scope R6). -/
def progBase : Nat := 0x200

/-- `MAX_IMAGE` (00_scope R6). -/
def maxImage : Nat := 3584

end Sys2Proof
end

