-- ==== Sys2Proof/Syntax.lean ====
section
/-! DEFINITION. The instructions: one constructor for each of the 35 rows of spec/opcode_table.json (30_encoding R75). The
operands are the fields of the row's format (R72). SHR and SHL keep the Y nibble their words carry; no meaning reads it
(R84, log entry 15). -/

namespace Sys2Proof

/-- One constructor per row of 30_encoding R75, in the table's order. -/
inductive Instr where
  /-- 0000: the halt word (40_cycle R95). -/
  | halt
  /-- 00E0 CLS (43_display R151). -/
  | cls
  /-- 00EE RET (41_control_flow R110). -/
  | ret
  /-- 1NNN JP NNN (R111). -/
  | jpNnn (nnn : Addr12)
  /-- 2NNN CALL NNN (R112). -/
  | callNnn (nnn : Addr12)
  /-- 3XNN SE VX, NN (R114). -/
  | seVxNn (x : Nibble) (nn : Byte)
  /-- 4XNN SNE VX, NN (R115). -/
  | sneVxNn (x : Nibble) (nn : Byte)
  /-- 5XY0 SE VX, VY (R116). -/
  | seVxVy (x y : Nibble)
  /-- 6XNN LD VX, NN (42_alu R130). -/
  | ldVxNn (x : Nibble) (nn : Byte)
  /-- 7XNN ADD VX, NN (R131). -/
  | addVxNn (x : Nibble) (nn : Byte)
  /-- 8XY0 LD VX, VY (R132), an instruction only when `OPT_8XY0` is true. -/
  | ldVxVy (x y : Nibble)
  /-- 8XY1 OR VX, VY (R133). -/
  | orVxVy (x y : Nibble)
  /-- 8XY2 AND VX, VY (R134). -/
  | andVxVy (x y : Nibble)
  /-- 8XY3 XOR VX, VY (R135). -/
  | xorVxVy (x y : Nibble)
  /-- 8XY4 ADD VX, VY (R136). -/
  | addVxVy (x y : Nibble)
  /-- 8XY5 SUB VX, VY (R137). -/
  | subVxVy (x y : Nibble)
  /-- 8XY6 SHR VX (R138); y is the ignored nibble. -/
  | shrVx (x y : Nibble)
  /-- 8XY7 SUBN VX, VY (R139). -/
  | subnVxVy (x y : Nibble)
  /-- 8XYE SHL VX (R140); y is the ignored nibble. -/
  | shlVx (x y : Nibble)
  /-- 9XY0 SNE VX, VY (41_control_flow R117). -/
  | sneVxVy (x y : Nibble)
  /-- ANNN LD I, NNN (45_index_memory R170). -/
  | ldINnn (nnn : Addr12)
  /-- BNNN JP V0, NNN (41_control_flow R113). -/
  | jpV0Nnn (nnn : Addr12)
  /-- CXNN RND VX, NN (42_alu R141). -/
  | rndVxNn (x : Nibble) (nn : Byte)
  /-- DXYN DRW VX, VY, N (43_display R152). -/
  | drwVxVyN (x y n : Nibble)
  /-- EX9E SKP VX (44_keypad_timers R160). -/
  | skpVx (x : Nibble)
  /-- EXA1 SKNP VX (R161). -/
  | sknpVx (x : Nibble)
  /-- FX07 LD VX, DT (R163). -/
  | ldVxDt (x : Nibble)
  /-- FX0A LD VX, K: wait for a key (R162). -/
  | ldVxK (x : Nibble)
  /-- FX15 LD DT, VX (R164). -/
  | ldDtVx (x : Nibble)
  /-- FX18 LD ST, VX (R165). -/
  | ldStVx (x : Nibble)
  /-- FX1E ADD I, VX (45_index_memory R171). -/
  | addIVx (x : Nibble)
  /-- FX29 LD F, VX (R172). -/
  | ldFVx (x : Nibble)
  /-- FX33 LD B, VX (R174). -/
  | ldBVx (x : Nibble)
  /-- FX55 LD [I], VX (R175). -/
  | ldMemVx (x : Nibble)
  /-- FX65 LD VX, [I] (R176). -/
  | ldVxMem (x : Nibble)
deriving DecidableEq, Repr

end Sys2Proof
end

