-- ==== Sys2Proof/WellFormed.lean ====
section
/-! DEFINITION. Which instructions a machine has. Every value of every operand field is legal (30_encoding R73), and the field
types admit nothing else, so one check is left: 8XY0 is an instruction only where `OPT_8XY0` is true (R132, D9). -/

namespace Sys2Proof

/-- `i.wf opt8XY0`: `i` is an instruction of a machine built with that value of `OPT_8XY0` (42_alu R132, 30_encoding R80). -/
def Instr.wf (opt8XY0 : Bool) (i : Instr) : Bool :=
  match i with
  | .ldVxVy _ _ => opt8XY0
  | .halt | .cls | .ret | .jpNnn _ | .callNnn _ | .seVxNn _ _ | .sneVxNn _ _ | .seVxVy _ _ | .ldVxNn _ _ | .addVxNn _ _
  | .orVxVy _ _ | .andVxVy _ _ | .xorVxVy _ _ | .addVxVy _ _ | .subVxVy _ _ | .shrVx _ _ | .subnVxVy _ _ | .shlVx _ _
  | .sneVxVy _ _ | .ldINnn _ | .jpV0Nnn _ | .rndVxNn _ _ | .drwVxVyN _ _ _ | .skpVx _ | .sknpVx _ | .ldVxDt _ | .ldVxK _
  | .ldDtVx _ | .ldStVx _ | .addIVx _ | .ldFVx _ | .ldBVx _ | .ldMemVx _ | .ldVxMem _ => true

end Sys2Proof
end

