-- ==== Sys2Proof/Decode.lean ====
section
/-! DEFINITION. The decoder (30_encoding R70 to R81, 40_cycle R93), total on any bytes and rejecting by name, and the encoder
written from the same table (R75). -/

namespace Sys2Proof

/-- Why bytes are no instruction. -/
inductive DecodeError where
  /-- Fewer than two bytes: an instruction is exactly 16 bits (30_encoding R70). -/
  | truncated
  /-- The unknown word `w` (30_encoding R80). -/
  | unknownWord (w : Word)
deriving DecidableEq, Repr

/-- `word[15:12]` (30_encoding R71). -/
def fieldOp (w : Word) : Nibble := w.extractLsb' 12 4

/-- `word[11:8]` (30_encoding R71). -/
def fieldX (w : Word) : Nibble := w.extractLsb' 8 4

/-- `word[7:4]` (30_encoding R71). -/
def fieldY (w : Word) : Nibble := w.extractLsb' 4 4

/-- `word[3:0]` (30_encoding R71). -/
def fieldN (w : Word) : Nibble := w.extractLsb' 0 4

/-- `word[7:0]` (30_encoding R71). -/
def fieldNN (w : Word) : Byte := w.extractLsb' 0 8

/-- `word[11:0]` (30_encoding R71). -/
def fieldNNN (w : Word) : Addr12 := w.extractLsb' 0 12

/-- Second level of op 0x0: the whole word (30_encoding R74, R78, R79). -/
def decodeGroup0 (w : Word) : Except DecodeError Instr :=
  if w = 0x0000#16 then .ok .halt
  else if w = 0x00E0#16 then .ok .cls
  else if w = 0x00EE#16 then .ok .ret
  else .error (.unknownWord w)

/-- Second level of op 0x8: N (30_encoding R74, R75 rows 11 to 19, R77). -/
def decodeGroup8 (opt8XY0 : Bool) (w : Word) : Except DecodeError Instr :=
  match fieldN w with
  | 0x0#4 => if opt8XY0 then .ok (.ldVxVy (fieldX w) (fieldY w)) else .error (.unknownWord w)
  | 0x1#4 => .ok (.orVxVy (fieldX w) (fieldY w))
  | 0x2#4 => .ok (.andVxVy (fieldX w) (fieldY w))
  | 0x3#4 => .ok (.xorVxVy (fieldX w) (fieldY w))
  | 0x4#4 => .ok (.addVxVy (fieldX w) (fieldY w))
  | 0x5#4 => .ok (.subVxVy (fieldX w) (fieldY w))
  | 0x6#4 => .ok (.shrVx (fieldX w) (fieldY w))
  | 0x7#4 => .ok (.subnVxVy (fieldX w) (fieldY w))
  | 0xE#4 => .ok (.shlVx (fieldX w) (fieldY w))
  | _ => .error (.unknownWord w)

/-- Second level of op 0xE: the low byte (30_encoding R74, R75 rows 25 and 26). -/
def decodeGroupE (w : Word) : Except DecodeError Instr :=
  match fieldNN w with
  | 0x9E#8 => .ok (.skpVx (fieldX w))
  | 0xA1#8 => .ok (.sknpVx (fieldX w))
  | _ => .error (.unknownWord w)

/-- Second level of op 0xF: the low byte (30_encoding R74, R75 rows 27 to 35). -/
def decodeGroupF (w : Word) : Except DecodeError Instr :=
  match fieldNN w with
  | 0x07#8 => .ok (.ldVxDt (fieldX w))
  | 0x0A#8 => .ok (.ldVxK (fieldX w))
  | 0x15#8 => .ok (.ldDtVx (fieldX w))
  | 0x18#8 => .ok (.ldStVx (fieldX w))
  | 0x1E#8 => .ok (.addIVx (fieldX w))
  | 0x29#8 => .ok (.ldFVx (fieldX w))
  | 0x33#8 => .ok (.ldBVx (fieldX w))
  | 0x55#8 => .ok (.ldMemVx (fieldX w))
  | 0x65#8 => .ok (.ldVxMem (fieldX w))
  | _ => .error (.unknownWord w)

/-- The two-level lookup of 30_encoding R74 on one word. It reads the word and the parameter `OPT_8XY0`, nothing else
(40_cycle R93). -/
def decodeWord (opt8XY0 : Bool) (w : Word) : Except DecodeError Instr :=
  match fieldOp w with
  | 0x0#4 => decodeGroup0 w
  | 0x1#4 => .ok (.jpNnn (fieldNNN w))
  | 0x2#4 => .ok (.callNnn (fieldNNN w))
  | 0x3#4 => .ok (.seVxNn (fieldX w) (fieldNN w))
  | 0x4#4 => .ok (.sneVxNn (fieldX w) (fieldNN w))
  | 0x5#4 => if fieldN w = 0x0#4 then .ok (.seVxVy (fieldX w) (fieldY w)) else .error (.unknownWord w)
  | 0x6#4 => .ok (.ldVxNn (fieldX w) (fieldNN w))
  | 0x7#4 => .ok (.addVxNn (fieldX w) (fieldNN w))
  | 0x8#4 => decodeGroup8 opt8XY0 w
  | 0x9#4 => if fieldN w = 0x0#4 then .ok (.sneVxVy (fieldX w) (fieldY w)) else .error (.unknownWord w)
  | 0xA#4 => .ok (.ldINnn (fieldNNN w))
  | 0xB#4 => .ok (.jpV0Nnn (fieldNNN w))
  | 0xC#4 => .ok (.rndVxNn (fieldX w) (fieldNN w))
  | 0xD#4 => .ok (.drwVxVyN (fieldX w) (fieldY w) (fieldN w))
  | 0xE#4 => decodeGroupE w
  | 0xF#4 => decodeGroupF w
  | _ => .error (.unknownWord w)

/-- The instruction word of two bytes, high byte first (20_memory R54). -/
def wordOfBytes (hi lo : Byte) : Word := hi ++ lo

/-- The two bytes of an instruction word, in memory order (20_memory R54). -/
def bytesOfWord (w : Word) : List Byte := [w.extractLsb' 8 8, w.extractLsb' 0 8]

/-- Decode the first instruction of a byte stream and return the rest. -/
def decodeBytes (opt8XY0 : Bool) (bytes : List Byte) : Except DecodeError (Instr × List Byte) :=
  match bytes with
  | hi :: lo :: rest =>
    match decodeWord opt8XY0 (wordOfBytes hi lo) with
    | .ok i => .ok (i, rest)
    | .error e => .error e
  | _ => .error .truncated

/-- Format NNN of 30_encoding R72: op, then a 12-bit address. -/
def packNNN (op : Nibble) (nnn : Addr12) : Word := op ++ nnn

/-- Formats XNN and X of 30_encoding R72: op, X, then the low byte. -/
def packXNN (op x : Nibble) (nn : Byte) : Word := op ++ x ++ nn

/-- Formats XY and XYN of 30_encoding R72: op, X, Y, then the low nibble. -/
def packXYN (op x y n : Nibble) : Word := op ++ x ++ y ++ n

/-- The word of an instruction (30_encoding R75): fixed bits and fields from bit 15 down. -/
def encode (i : Instr) : Word :=
  match i with
  | .halt => 0x0000#16
  | .cls => 0x00E0#16
  | .ret => 0x00EE#16
  | .jpNnn nnn => packNNN 0x1#4 nnn
  | .callNnn nnn => packNNN 0x2#4 nnn
  | .seVxNn x nn => packXNN 0x3#4 x nn
  | .sneVxNn x nn => packXNN 0x4#4 x nn
  | .seVxVy x y => packXYN 0x5#4 x y 0x0#4
  | .ldVxNn x nn => packXNN 0x6#4 x nn
  | .addVxNn x nn => packXNN 0x7#4 x nn
  | .ldVxVy x y => packXYN 0x8#4 x y 0x0#4
  | .orVxVy x y => packXYN 0x8#4 x y 0x1#4
  | .andVxVy x y => packXYN 0x8#4 x y 0x2#4
  | .xorVxVy x y => packXYN 0x8#4 x y 0x3#4
  | .addVxVy x y => packXYN 0x8#4 x y 0x4#4
  | .subVxVy x y => packXYN 0x8#4 x y 0x5#4
  | .shrVx x y => packXYN 0x8#4 x y 0x6#4
  | .subnVxVy x y => packXYN 0x8#4 x y 0x7#4
  | .shlVx x y => packXYN 0x8#4 x y 0xE#4
  | .sneVxVy x y => packXYN 0x9#4 x y 0x0#4
  | .ldINnn nnn => packNNN 0xA#4 nnn
  | .jpV0Nnn nnn => packNNN 0xB#4 nnn
  | .rndVxNn x nn => packXNN 0xC#4 x nn
  | .drwVxVyN x y n => packXYN 0xD#4 x y n
  | .skpVx x => packXNN 0xE#4 x 0x9E#8
  | .sknpVx x => packXNN 0xE#4 x 0xA1#8
  | .ldVxDt x => packXNN 0xF#4 x 0x07#8
  | .ldVxK x => packXNN 0xF#4 x 0x0A#8
  | .ldDtVx x => packXNN 0xF#4 x 0x15#8
  | .ldStVx x => packXNN 0xF#4 x 0x18#8
  | .addIVx x => packXNN 0xF#4 x 0x1E#8
  | .ldFVx x => packXNN 0xF#4 x 0x29#8
  | .ldBVx x => packXNN 0xF#4 x 0x33#8
  | .ldMemVx x => packXNN 0xF#4 x 0x55#8
  | .ldVxMem x => packXNN 0xF#4 x 0x65#8

/-- The bytes of an instruction in memory order (20_memory R54). -/
def encodeBytes (i : Instr) : List Byte := bytesOfWord (encode i)

/-- One row of 30_encoding R75 as the table gives it: the fixed bits (`mask`) and their values (`pattern`, the column
"match"). -/
structure OpcodeRow where
  pattern : Word
  mask : Word
deriving DecidableEq, Repr

/-- Rows 1 to 10 of 30_encoding R75. -/
def opcodeRowsLow : List OpcodeRow :=
  [⟨0x0000, 0xFFFF⟩, ⟨0x00E0, 0xFFFF⟩, ⟨0x00EE, 0xFFFF⟩, ⟨0x1000, 0xF000⟩, ⟨0x2000, 0xF000⟩, ⟨0x3000, 0xF000⟩,
   ⟨0x4000, 0xF000⟩, ⟨0x5000, 0xF00F⟩, ⟨0x6000, 0xF000⟩, ⟨0x7000, 0xF000⟩]

/-- Row 11 of 30_encoding R75, which counts only when `OPT_8XY0` is true (R80). -/
def opcodeRow8XY0 (opt8XY0 : Bool) : List OpcodeRow := if opt8XY0 then [⟨0x8000, 0xF00F⟩] else []

/-- Rows 12 to 24 of 30_encoding R75. -/
def opcodeRowsMid : List OpcodeRow :=
  [⟨0x8001, 0xF00F⟩, ⟨0x8002, 0xF00F⟩, ⟨0x8003, 0xF00F⟩, ⟨0x8004, 0xF00F⟩, ⟨0x8005, 0xF00F⟩, ⟨0x8006, 0xF00F⟩,
   ⟨0x8007, 0xF00F⟩, ⟨0x800E, 0xF00F⟩, ⟨0x9000, 0xF00F⟩, ⟨0xA000, 0xF000⟩, ⟨0xB000, 0xF000⟩, ⟨0xC000, 0xF000⟩,
   ⟨0xD000, 0xF000⟩]

/-- Rows 25 to 35 of 30_encoding R75. -/
def opcodeRowsHigh : List OpcodeRow :=
  [⟨0xE09E, 0xF0FF⟩, ⟨0xE0A1, 0xF0FF⟩, ⟨0xF007, 0xF0FF⟩, ⟨0xF00A, 0xF0FF⟩, ⟨0xF015, 0xF0FF⟩, ⟨0xF018, 0xF0FF⟩,
   ⟨0xF01E, 0xF0FF⟩, ⟨0xF029, 0xF0FF⟩, ⟨0xF033, 0xF0FF⟩, ⟨0xF055, 0xF0FF⟩, ⟨0xF065, 0xF0FF⟩]

/-- The opcode map of 30_encoding R75 as masks and matches: a second reading of the table, beside `decodeWord`. -/
def opcodeRows (opt8XY0 : Bool) : List OpcodeRow :=
  opcodeRowsLow ++ opcodeRow8XY0 opt8XY0 ++ opcodeRowsMid ++ opcodeRowsHigh

/-- The row of 30_encoding R75 of each instruction, written from the table's columns match and mask: the
fixed bits of THAT instruction (R74, R77), beside `opcodeRows`, which gives the rows without their instructions. -/
def tableRow (i : Instr) : OpcodeRow :=
  match i with
  | .halt => ⟨0x0000, 0xFFFF⟩
  | .cls => ⟨0x00E0, 0xFFFF⟩
  | .ret => ⟨0x00EE, 0xFFFF⟩
  | .jpNnn _ => ⟨0x1000, 0xF000⟩
  | .callNnn _ => ⟨0x2000, 0xF000⟩
  | .seVxNn _ _ => ⟨0x3000, 0xF000⟩
  | .sneVxNn _ _ => ⟨0x4000, 0xF000⟩
  | .seVxVy _ _ => ⟨0x5000, 0xF00F⟩
  | .ldVxNn _ _ => ⟨0x6000, 0xF000⟩
  | .addVxNn _ _ => ⟨0x7000, 0xF000⟩
  | .ldVxVy _ _ => ⟨0x8000, 0xF00F⟩
  | .orVxVy _ _ => ⟨0x8001, 0xF00F⟩
  | .andVxVy _ _ => ⟨0x8002, 0xF00F⟩
  | .xorVxVy _ _ => ⟨0x8003, 0xF00F⟩
  | .addVxVy _ _ => ⟨0x8004, 0xF00F⟩
  | .subVxVy _ _ => ⟨0x8005, 0xF00F⟩
  | .shrVx _ _ => ⟨0x8006, 0xF00F⟩
  | .subnVxVy _ _ => ⟨0x8007, 0xF00F⟩
  | .shlVx _ _ => ⟨0x800E, 0xF00F⟩
  | .sneVxVy _ _ => ⟨0x9000, 0xF00F⟩
  | .ldINnn _ => ⟨0xA000, 0xF000⟩
  | .jpV0Nnn _ => ⟨0xB000, 0xF000⟩
  | .rndVxNn _ _ => ⟨0xC000, 0xF000⟩
  | .drwVxVyN _ _ _ => ⟨0xD000, 0xF000⟩
  | .skpVx _ => ⟨0xE09E, 0xF0FF⟩
  | .sknpVx _ => ⟨0xE0A1, 0xF0FF⟩
  | .ldVxDt _ => ⟨0xF007, 0xF0FF⟩
  | .ldVxK _ => ⟨0xF00A, 0xF0FF⟩
  | .ldDtVx _ => ⟨0xF015, 0xF0FF⟩
  | .ldStVx _ => ⟨0xF018, 0xF0FF⟩
  | .addIVx _ => ⟨0xF01E, 0xF0FF⟩
  | .ldFVx _ => ⟨0xF029, 0xF0FF⟩
  | .ldBVx _ => ⟨0xF033, 0xF0FF⟩
  | .ldMemVx _ => ⟨0xF055, 0xF0FF⟩
  | .ldVxMem _ => ⟨0xF065, 0xF0FF⟩

/-- The operands of `i` are the fields of the word `w` that the format of its row names (30_encoding R71, R72). -/
def operandsAreFields (i : Instr) (w : Word) : Prop :=
  match i with
  | .halt | .cls | .ret => True
  | .jpNnn nnn | .callNnn nnn | .ldINnn nnn | .jpV0Nnn nnn => nnn = fieldNNN w
  | .seVxNn x nn | .sneVxNn x nn | .ldVxNn x nn | .addVxNn x nn | .rndVxNn x nn => x = fieldX w ∧ nn = fieldNN w
  | .seVxVy x y | .sneVxVy x y | .ldVxVy x y | .orVxVy x y | .andVxVy x y | .xorVxVy x y | .addVxVy x y | .subVxVy x y
  | .shrVx x y | .subnVxVy x y | .shlVx x y => x = fieldX w ∧ y = fieldY w
  | .drwVxVyN x y n => x = fieldX w ∧ y = fieldY w ∧ n = fieldN w
  | .skpVx x | .sknpVx x | .ldVxDt x | .ldVxK x | .ldDtVx x | .ldStVx x | .addIVx x | .ldFVx x | .ldBVx x | .ldMemVx x
  | .ldVxMem x => x = fieldX w

/-- What the decoder reads from an instruction of `nbits` bits whose value is `w`, the first word's least significant bit
being bit 0; bits above `nbits` are 0. One word, laid out high byte first, for a machine built with the defaults of
00_scope R7 (`OPT_8XY0` true). -/
def decodeTableWord (nbits w : Nat) : Option Instr :=
  match decodeBytes Config.default.opt8XY0 (bytesOfWord (BitVec.ofNat 16 (w % 2 ^ nbits))) with
  | .ok (i, _) => some i
  | .error _ => none

end Sys2Proof
end

