-- ==== Sys2Proof/Machine/State.lean ====
section
/-! DEFINITION. The state of the core as plain data (10_state R20), with its inputs, outputs and build parameters, and the
state after reset with no program loaded (R41). -/

namespace Sys2Proof.Machine

/-- `RUN`, the status latch (10_state R34, 60_exceptions R181). -/
inductive Run where
  /-- The machine can continue. -/
  | running
  /-- Fetch exhaustion: PC reached or passed `PROG_END`. -/
  | haltEnd
  /-- The halt word was fetched. -/
  | haltZero
  /-- An unknown word was fetched under `UNKNOWN_POLICY = HALT`. -/
  | haltUnknown
  /-- An access or index out of range (60_exceptions R184). -/
  | fatalRange
deriving DecidableEq, Repr

/-- `event_out`: what a cycle reports without changing state (60_exceptions R186). -/
inductive Event where
  /-- Nothing to report. -/
  | none
  /-- An unknown word was skipped. -/
  | unknownSkipped
  /-- 00EE with an empty stack. -/
  | stackUnderflow
  /-- FX0A with no key down. -/
  | keyWait
deriving DecidableEq, Repr

/-- The diagnosis reported with FATAL_RANGE (60_exceptions R184). -/
inductive RangeInfo where
  /-- The first address above 4095 the instruction needed. -/
  | address (a : Nat)
  /-- KEY_INDEX, the value of VX. -/
  | keyIndex (k : Byte)
  /-- STACK_OVERFLOW. -/
  | stackOverflow
deriving DecidableEq, Repr

/-- The result of a load (60_exceptions R185). -/
inductive LoadResult where
  | ok
  | oversize
deriving DecidableEq, Repr

/-- Nothing raises a fault: every condition the spec lets end a run is a status in `State.run`, reached by a next state
(60_exceptions R181, R189, R190), and every instruction and every word has an effect (30_encoding R81). The type has no
constructor, so no step can stop without the spec's status; that is safe (log entry 2). -/
inductive Fault where
deriving DecidableEq, Repr

/-- Why an instruction has no meaning. -/
inductive Refusal where
  /-- Raised by an arm of `exec` whose instruction is not modelled yet, by its mnemonic in spec/opcode_table.json. Safe: the
  machine stops where the hardware goes on. No arm raises it: every instruction has its meaning. -/
  | notModelled (mnemonic : String)
deriving DecidableEq, Repr

/-- `mem` as the listed (address, byte) pairs; an unlisted address reads as `unlistedByte` says (10_state R29). -/
abbrev Memory := List Host.Cell

/-- `FB`: row y is element y, column x is bit x of it; so `fb_out` bit y * 64 + x is bit x of row y (10_state R30, R39). -/
abbrev Frame := Vector (BitVec 64) 32

/-- The state of the core between two cycles (10_state R20), its inputs (R31, R37, R38), its outputs (R40) and its build
parameters (00_scope R7). The instruction word is live only within a cycle and is no field (R32, log entry 13). -/
structure State where
  /-- V0 to VF; VF is also the flag (R21, R22). -/
  v : Vector Byte 16
  /-- I (R23). -/
  i : Word
  /-- PC (R24 to R26). -/
  pc : Word
  /-- The call stack, top first (R27). -/
  stack : List Word
  /-- DT (R28). -/
  dt : Byte
  /-- ST (R28). -/
  st : Byte
  /-- `mem` (R29). -/
  mem : Memory
  /-- `FB` (R30). -/
  fb : Frame
  /-- `key`: bit k is 1 when key k is pressed; the sample of the current cycle (R31). -/
  key : Word
  /-- `PROG_END` (R33). -/
  progEnd : Nat
  /-- `RUN` (R34). -/
  run : Run
  /-- `event_out` of the last cycle (R40, 60_exceptions R186). -/
  event : Event
  /-- The diagnosis of a cycle that raised FATAL_RANGE (60_exceptions R184). -/
  info : Option RangeInfo
  /-- MODEL's own: what the environment will drive on keypad_in at the start of the coming cycles (R37, log entry 4). -/
  keyFeed : List Word
  /-- MODEL's own: the bytes the environment has lined up on rnd_in (R38, log entry 5). -/
  rndFeed : List Byte
  /-- MODEL's own: the number of draws made, which indexes the free value `Config.rndByte` (log entry 5). -/
  draws : Nat
  /-- MODEL's own: the build parameters, fixed for the life of the machine (00_scope R7, log entry 1). -/
  cfg : Config
deriving DecidableEq, Repr

/-- The machine right after reset with an empty image (10_state R41, 70_reset_and_hazards R210): memory lists nothing, so
0x000 to 0x04F hold the default font table; `PROG_END` = 0x200. FB all 0, no key down and empty feeds are this model's
choices (log entries 6, 7, 8); `State.resetWith` is the reset of R210 for every image, FONT_TABLE, MEM_INIT and FB_INIT. -/
def State.reset : State :=
  { v := Vector.replicate 16 0x00#8
    i := 0x0000#16
    pc := 0x0200#16
    stack := []
    dt := 0x00#8
    st := 0x00#8
    mem := []
    fb := Vector.replicate 32 0x0#64
    key := 0x0000#16
    progEnd := 0x200
    run := .running
    event := .none
    info := none
    keyFeed := []
    rndFeed := []
    draws := 0
    cfg := Config.default }

/-- What a meaning and a step answer. -/
abbrev Result := Host.Outcome State Fault Refusal

end Sys2Proof.Machine
end

