-- ==== Sys2Proof/Machine/Ops.lean ====
section
/-! DEFINITION. The named operations over memory, registers, call stack, timers, framebuffer, inputs and outputs, the ONE
operation that raises a status condition (60_exceptions R189, R190), and the skip of one instruction (41_control_flow R118). -/

namespace Sys2Proof.Machine

/-! ### Memory (10_state R29, 20_memory R50 to R53) -/

/-- Glyphs 0 to 7 of the conventional table (70_reset_and_hazards R212). -/
def fontLow : List Byte :=
  [0xF0, 0x90, 0x90, 0x90, 0xF0] ++ [0x20, 0x60, 0x20, 0x20, 0x70] ++ [0xF0, 0x10, 0xF0, 0x80, 0xF0]
    ++ [0xF0, 0x10, 0xF0, 0x10, 0xF0] ++ [0x90, 0x90, 0xF0, 0x10, 0x10] ++ [0xF0, 0x80, 0xF0, 0x10, 0xF0]
    ++ [0xF0, 0x80, 0xF0, 0x90, 0xF0] ++ [0xF0, 0x10, 0x20, 0x40, 0x40]

/-- Glyphs 8 to F of the conventional table (70_reset_and_hazards R212). -/
def fontHigh : List Byte :=
  [0xF0, 0x90, 0xF0, 0x90, 0xF0] ++ [0xF0, 0x90, 0xF0, 0x10, 0xF0] ++ [0xF0, 0x90, 0xF0, 0x90, 0x90]
    ++ [0xE0, 0x90, 0xE0, 0x90, 0xE0] ++ [0xF0, 0x80, 0x80, 0x80, 0xF0] ++ [0xE0, 0x90, 0x90, 0x90, 0xE0]
    ++ [0xF0, 0x80, 0xF0, 0x80, 0xF0] ++ [0xF0, 0x80, 0xF0, 0x80, 0x80]

/-- `FONT_TABLE` at its default, 80 bytes. PRESUMED: general knowledge the spec marks as such (R212, G7, log entry 9). -/
def fontTable : List Byte := fontLow ++ fontHigh

/-- What an unlisted address reads as: the default font table at 0x000 to 0x04F (PRESUMED, log entry 9), 0x00 elsewhere
(DESIGN CHOICE, unsafe, log entry 8: the spec leaves MEM_INIT open, D28). -/
def unlistedByte (a : Nat) : Byte := fontTable.getD a 0x00#8

/-- The byte at address `a`. -/
def Memory.read (m : Memory) (a : Nat) : Byte :=
  match m with
  | [] => unlistedByte a
  | c :: rest => if a = c.1 then c.2 else Memory.read rest a

/-- List the pair (a, b) before the first pair of a higher or equal address. -/
def Memory.insert (m : Memory) (a : Nat) (b : Byte) : Memory :=
  match m with
  | [] => [(a, b)]
  | c :: rest => if c.1 < a then c :: Memory.insert rest a b else (a, b) :: c :: rest

/-- Store byte `b` at `a` and keep the canonical form: the address is listed once, and not at all when `b` is what it reads
as unlisted. -/
def Memory.write (m : Memory) (a : Nat) (b : Byte) : Memory :=
  let others := m.filter (fun c => c.1 != a)
  if b = unlistedByte a then others else Memory.insert others a b

/-- Store bytes at `a`, `a` + 1, ... in that order (20_memory R56). -/
def Memory.writeList (m : Memory) (a : Nat) (bytes : List Byte) : Memory :=
  match bytes with
  | [] => m
  | b :: rest => Memory.writeList (Memory.write m a b) (a + 1) rest

/-- The canonical form: addresses strictly rising, each below 4096, no entry equal to what its address reads as unlisted. -/
def Memory.wf (m : Memory) : Bool :=
  decide (m.Pairwise fun c d => c.1 < d.1) && m.all fun c => decide (c.1 < 4096) && c.2 != unlistedByte c.1

/-! ### Registers (10_state R21 to R24) -/

/-- `V[x]`. -/
def State.reg (s : State) (x : Nibble) : Byte := s.v[x.toNat]'(by have := x.isLt; omega)

/-- `V[x] <- b`. -/
def State.setReg (s : State) (x : Nibble) (b : Byte) : State :=
  { s with v := s.v.set x.toNat b (by have := x.isLt; omega) }

/-- `V[x], V[x+1], ... <- bytes` in ascending register order, for as many registers as there are (45_index_memory R176). -/
def State.setRegs (s : State) (x : Nat) (bytes : List Byte) : State :=
  match bytes with
  | [] => s
  | b :: rest => if x < 16 then State.setRegs (s.setReg (BitVec.ofNat 4 x) b) (x + 1) rest else s

/-- `I <- a`. -/
def State.setI (s : State) (a : Word) : State := { s with i := a }

/-- `PC <- a`. -/
def State.setPc (s : State) (a : Word) : State := { s with pc := a }

/-- A taken skip: PC, already advanced past the instruction, moves past the next 2 bytes (40_cycle R92, 41_control_flow
R118). -/
def State.skipIf (s : State) (taken : Bool) : State := if taken then s.setPc (s.pc + 2#16) else s

/-! ### Memory of a state -/

/-- Replace the whole memory. -/
def State.setMem (s : State) (m : Memory) : State := { s with mem := m }

/-- Store bytes at `a`, `a` + 1, ... -/
def State.store (s : State) (a : Nat) (bytes : List Byte) : State := s.setMem (s.mem.writeList a bytes)

/-- The `len` bytes at `a`, `a` + 1, ... -/
def State.bytesAt (s : State) (a len : Nat) : List Byte := (List.range len).map fun k => s.mem.read (a + k)

/-! ### Call stack (10_state R27) -/

/-- Replace the whole call stack. -/
def State.setStack (s : State) (l : List Word) : State := { s with stack := l }

/-- `push(a)`. -/
def State.push (s : State) (a : Word) : State := s.setStack (a :: s.stack)

/-- `STACK_DEPTH` is finite and the stack holds that many entries (41_control_flow R112). -/
def State.stackFull (s : State) : Bool := s.cfg.stackDepth == some s.stack.length

/-! ### Timers (10_state R28) -/

/-- `DT <- b`. -/
def State.setDt (s : State) (b : Byte) : State := { s with dt := b }

/-- `ST <- b`. -/
def State.setSt (s : State) (b : Byte) : State := { s with st := b }

/-- `if t > 0 then t - 1`, else 0 (40_cycle R98). -/
def tickDown (t : Byte) : Byte := if t = 0x00#8 then 0x00#8 else t - 1#8

/-- The timer tick (40_cycle R98). -/
def State.tickTimers (s : State) : State := (s.setDt (tickDown s.dt)).setSt (tickDown s.st)

/-! ### Framebuffer (10_state R30) -/

/-- Replace the whole framebuffer. -/
def State.setFb (s : State) (f : Frame) : State := { s with fb := f }

/-- Every cell 0 (43_display R151). -/
def Frame.clear : Frame := Vector.replicate 32 0x0#64

/-- `FB[x, y]`, column x in 0..63, row y in 0..31; outside the grid `false`. -/
def Frame.pixel (f : Frame) (x y : Nat) : Bool := (f[y]?.getD 0x0#64).getLsbD x

/-- `FB[x, y] <- FB[x, y] ^ 1`. -/
def Frame.flip (f : Frame) (x y : Nat) : Frame := f.setIfInBounds y (f[y]?.getD 0x0#64 ^^^ (0x1#64 <<< x))

/-- Bit `n` of fb_out: cell (n mod 64, n div 64) (10_state R39). -/
def State.fbOut (s : State) (n : Nat) : Bool := s.fb.pixel (n % 64) (n / 64)

/-! ### Inputs (10_state R31, R37, R38) -/

/-- Set the keypad sample and what is still to come. -/
def State.setKeys (s : State) (key : Word) (feed : List Word) : State := { s with key := key, keyFeed := feed }

/-- Sample keypad_in at the start of a cycle: the environment's next value, or the level as it stands (log entry 4). -/
def State.sampleKeys (s : State) : State :=
  match s.keyFeed with
  | [] => s
  | k :: rest => s.setKeys k rest

/-- `rnd`: the byte on rnd_in: the next one lined up, else a free value (10_state R38, log entry 5). -/
def State.rnd (s : State) : Byte :=
  match s.rndFeed with
  | [] => Config.rndByte s.draws
  | b :: _ => b

/-- The byte has been read: the next draw is another one. -/
def State.nextRnd (s : State) : State := { s with rndFeed := s.rndFeed.tail, draws := s.draws + 1 }

/-! ### Status conditions and outputs (60_exceptions R181 to R190) -/

/-- `event E` (00_scope R9). -/
def State.setEvent (s : State) (e : Event) : State := { s with event := e }

/-- The diagnosis output. -/
def State.setInfo (s : State) (d : Option RangeInfo) : State := { s with info := d }

/-- Raise a status condition: RUN takes its code, nothing else is written, control goes nowhere inside the machine
(60_exceptions R189, R190). The only way back is reset (R191). -/
def State.stop (s : State) (r : Run) : State := { s with run := r }

/-- `raise FATAL_RANGE(info)` (60_exceptions R184, R190). -/
def State.raiseRange (s : State) (d : RangeInfo) : State := (s.stop .fatalRange).setInfo (some d)

/-- The code of a status (10_state R34, D24). -/
def Run.code (r : Run) : Nat :=
  match r with
  | .running => 0
  | .haltEnd => 1
  | .haltZero => 2
  | .haltUnknown => 3
  | .fatalRange => 4

/-- The code of an event (60_exceptions R186, D24). -/
def Event.code (e : Event) : Nat :=
  match e with
  | .none => 0
  | .unknownSkipped => 1
  | .stackUnderflow => 2
  | .keyWait => 3

/-- status_out (10_state R40). -/
def State.statusOut (s : State) : Nat := s.run.code

/-- event_out (10_state R40). -/
def State.eventOut (s : State) : Nat := s.event.code

/-- The continue/halt signal of a step: `RUN == RUNNING` (10_state R34, R36). -/
def State.continues (s : State) : Bool := s.run == .running

end Sys2Proof.Machine
end

