-- ==== Sys2Proof/Machine/Operands.lean ====
section
/-! DEFINITION. The operand forms: register-indirect through I with its one range check (45_index_memory R177, 20_memory R52,
R53), the key index (44_keypad_timers R166), the least pressed key (R162), and the widenings of immediates (30_encoding R73). -/

namespace Sys2Proof.Machine

/-- NNN or VX as a 16-bit number (30_encoding R73). -/
def zext16 {w : Nat} (a : BitVec w) : Word := a.setWidth 16

/-- No address of the `len` bytes at `base` is above 4095; the sum is a natural number (20_memory R52, R56). -/
def rangeOk (base len : Nat) : Bool := decide (len = 0 ∨ base + (len - 1) ≤ 4095)

/-- The first address above 4095 of a block at `base` that is not in range (60_exceptions R184). -/
def firstBadAddress (base : Nat) : Nat := max base 4096

/-- Run a memory handler on the `len` bytes at I: the range of all of them is checked before any state is changed
(20_memory R53, 40_cycle R94, D17). -/
def State.withBlock (s : State) (len : Nat) (done : State) : Result :=
  if rangeOk s.i.toNat len then .next done else .next (s.raiseRange (.address (firstBadAddress s.i.toNat)))

/-- The key VX names, or the diagnosis when VX > 15 and the policy is FAULT (44_keypad_timers R160, R166). -/
def State.keyIndex (s : State) (x : Nibble) : Except RangeInfo Nat :=
  if (s.reg x).toNat > 15 then
    match s.cfg.keyIndexPolicy with
    | .fault => .error (.keyIndex (s.reg x))
    | .mask => .ok ((s.reg x).toNat % 16)
  else .ok (s.reg x).toNat

/-- `key[k]`: key k is pressed in this cycle's sample (10_state R31). -/
def State.keyDown (s : State) (k : Nat) : Bool := s.key.getLsbD k

/-- The least pressed key, scanning 0 to 15 (44_keypad_timers R162). -/
def State.firstKey (s : State) : Option Nat := (List.range 16).find? s.keyDown

/-- The decimal digits FX33 stores: hundreds, tens, ones (45_index_memory R174). -/
def bcdDigits (b : Byte) : List Byte :=
  [BitVec.ofNat 8 (b.toNat / 100), BitVec.ofNat 8 (b.toNat / 10 % 10), BitVec.ofNat 8 (b.toNat % 10)]

/-- V0, V1, ..., V(count-1) in ascending order (45_index_memory R175). -/
def State.firstRegs (s : State) (count : Nat) : List Byte := (List.range count).map fun k => s.reg (BitVec.ofNat 4 k)

end Sys2Proof.Machine
end

