-- ==== Sys2Proof/Machine/Cycle.lean ====
section
/-! DEFINITION. The parts of a cycle around the handler (40_cycle R90 to R99): its start, the Fetch Unit, the unknown word, the
timer tick at its end, the tick of a machine that is not running; and the placing of one word where the next fetch reads. -/

namespace Sys2Proof.Machine

/-- Step 0 of 40_cycle R90: the per-cycle outputs are cleared. A tick of a machine that is not running does this and nothing
else (R99). -/
def State.clearOutputs (s : State) : State := (s.setEvent .none).setInfo none

/-- The start of a cycle of a running machine: outputs cleared, keypad sampled (40_cycle R90, 10_state R31). -/
def State.beginCycle (s : State) : State := s.clearOutputs.sampleKeys

/-- What the Fetch Unit hands on: the end of the run, or an instruction word with PC advanced (40_cycle R91). -/
inductive Fetched where
  /-- The cycle ends here, in this state. -/
  | ended (s : State)
  /-- The word, and the state the handler is entered with. -/
  | word (w : Word) (s : State)
deriving DecidableEq, Repr

/-- The Fetch Unit (40_cycle R91, R92): the `PROG_END` check, then the range of the second byte, then the word, high byte
first (20_memory R54), and PC advanced by 2. -/
def State.fetch (s : State) : Fetched :=
  if s.pc.toNat ≥ s.progEnd then .ended (s.stop .haltEnd)
  else if s.pc.toNat + 1 > 4095 then .ended (s.raiseRange (.address (firstBadAddress s.pc.toNat)))
  else .word (wordOfBytes (s.mem.read s.pc.toNat) (s.mem.read (s.pc.toNat + 1))) (s.setPc (s.pc + 2#16))

/-- An unknown word, fetched (40_cycle R96, D7). -/
def State.unknownWord (s : State) : State :=
  match s.cfg.unknownPolicy with
  | .skip => (s.setEvent .unknownSkipped).tickTimers
  | .halt => s.stop .haltUnknown

/-- Steps 6 and 7 of 40_cycle R90 on the handler's state: the timer tick, unless the cycle raised a status condition (R98). -/
def State.endCycle (s : State) : State := if s.run = .running then s.tickTimers else s

/-- `State.endCycle` on a handler's answer. -/
def endCycle (r : Result) : Result :=
  match r with
  | .next s => .next s.endCycle
  | .fault f => .fault f
  | .refused d => .refused d

/-- Set `PROG_END`, which only a load writes (10_state R33). -/
def State.setProgEnd (s : State) (a : Nat) : State := { s with progEnd := a }

/-- Place an instruction word at PC, as a load of a program would have done: its two bytes in memory order, `PROG_END` past
them, RUN = RUNNING (log entry 11). -/
def State.placeWord (s : State) (w : Word) : State :=
  ((s.store s.pc.toNat (bytesOfWord w)).setProgEnd (max s.progEnd (s.pc.toNat + 2))).stop .running

end Sys2Proof.Machine
end

