-- ==== Sys2Proof/Machine/Flags.lean ====
section
/-! DEFINITION. Every flag computation: VF after 8XY4, 8XY5, 8XY6, 8XY7, 8XYE (10_state R22, 42_alu R136 to R140), and the order
of the two writes (42_alu R143). The flag of DXYN is in Machine/Display.lean. -/

namespace Sys2Proof.Machine

/-- A flag value as VF holds it: 1 or 0 (10_state R22). -/
def flagByte (c : Bool) : Byte := if c then 0x01#8 else 0x00#8

/-- Carry of an addition: the exact sum exceeds 255 (42_alu R136). -/
def carryFlag (a b : Byte) : Byte := flagByte (decide (a.toNat + b.toNat > 255))

/-- No borrow of a - b: 0 if b > a, else 1 (42_alu R137, R139). -/
def noBorrowFlag (a b : Byte) : Byte := flagByte (!decide (b.toNat > a.toNat))

/-- The bit a right shift by one drops (42_alu R138). -/
def lowBitFlag (a : Byte) : Byte := flagByte (a.getLsbD 0)

/-- The bit a left shift by one drops (42_alu R140). -/
def highBitFlag (a : Byte) : Byte := flagByte (a.getLsbD 7)

/-- `V[X] <- result`, then `V[0xF] <- flag` last: the flag wins when X = 0xF (42_alu R143, D11). -/
def State.setRegThenFlag (s : State) (x : Nibble) (result flag : Byte) : State := (s.setReg x result).setReg 0xF#4 flag

end Sys2Proof.Machine
end

