-- ==== Sys2Proof/Machine/Alu.lean ====
section
/-! DEFINITION. Load, arithmetic, logic, shift and random instructions (42_alu R130 to R143). Operands are read before anything
is written (R143); BitVec arithmetic wraps modulo 256 (R142). -/

namespace Sys2Proof.Machine

/-- 6XNN LD VX, NN (42_alu R130). -/
def execLdVxNn (x : Nibble) (nn : Byte) (s : State) : Result := .next (s.setReg x nn)

/-- 7XNN ADD VX, NN (42_alu R131): VF is not set. -/
def execAddVxNn (x : Nibble) (nn : Byte) (s : State) : Result := .next (s.setReg x (s.reg x + nn))

/-- 8XY0 LD VX, VY (42_alu R132). -/
def execLdVxVy (x y : Nibble) (s : State) : Result := .next (s.setReg x (s.reg y))

/-- 8XY1 OR VX, VY (42_alu R133). -/
def execOrVxVy (x y : Nibble) (s : State) : Result := .next (s.setReg x (s.reg x ||| s.reg y))

/-- 8XY2 AND VX, VY (42_alu R134). -/
def execAndVxVy (x y : Nibble) (s : State) : Result := .next (s.setReg x (s.reg x &&& s.reg y))

/-- 8XY3 XOR VX, VY (42_alu R135). -/
def execXorVxVy (x y : Nibble) (s : State) : Result := .next (s.setReg x (s.reg x ^^^ s.reg y))

/-- 8XY4 ADD VX, VY (42_alu R136). -/
def execAddVxVy (x y : Nibble) (s : State) : Result :=
  .next (s.setRegThenFlag x (s.reg x + s.reg y) (carryFlag (s.reg x) (s.reg y)))

/-- 8XY5 SUB VX, VY (42_alu R137). -/
def execSubVxVy (x y : Nibble) (s : State) : Result :=
  .next (s.setRegThenFlag x (s.reg x - s.reg y) (noBorrowFlag (s.reg x) (s.reg y)))

/-- 8XY6 SHR VX (42_alu R138): Y is ignored (D12). -/
def execShrVx (x : Nibble) (s : State) : Result := .next (s.setRegThenFlag x (s.reg x >>> 1) (lowBitFlag (s.reg x)))

/-- 8XY7 SUBN VX, VY (42_alu R139). -/
def execSubnVxVy (x y : Nibble) (s : State) : Result :=
  .next (s.setRegThenFlag x (s.reg y - s.reg x) (noBorrowFlag (s.reg y) (s.reg x)))

/-- 8XYE SHL VX (42_alu R140): Y is ignored (D12). -/
def execShlVx (x : Nibble) (s : State) : Result := .next (s.setRegThenFlag x (s.reg x <<< 1) (highBitFlag (s.reg x)))

/-- CXNN RND VX, NN (42_alu R141): the byte of rnd_in is read once. -/
def execRndVxNn (x : Nibble) (nn : Byte) (s : State) : Result := .next ((s.setReg x (s.rnd &&& nn)).nextRnd)

end Sys2Proof.Machine
end

