-- ==== Sys2Proof/Machine/Control.lean ====
section
/-! DEFINITION. The halt word (40_cycle R95) and the control transfers (41_control_flow R110 to R118). A meaning is entered with
PC = pc0 + 2, the address of the next instruction (40_cycle R92). -/

namespace Sys2Proof.Machine

/-- 0000 (40_cycle R95): RUN <- HALT_ZERO. -/
def execHalt (s : State) : Result := .next (s.stop .haltZero)

/-- 00EE RET (41_control_flow R110): pop into PC; on an empty stack a no-op with the event STACK_UNDERFLOW. -/
def execRet (s : State) : Result :=
  match s.stack with
  | [] => .next (s.setEvent .stackUnderflow)
  | a :: rest => .next ((s.setStack rest).setPc a)

/-- 1NNN JP NNN (41_control_flow R111). -/
def execJpNnn (nnn : Addr12) (s : State) : Result := .next (s.setPc (zext16 nnn))

/-- 2NNN CALL NNN (41_control_flow R112). -/
def execCallNnn (nnn : Addr12) (s : State) : Result :=
  if s.stackFull then .next (s.raiseRange .stackOverflow) else .next ((s.push s.pc).setPc (zext16 nnn))

/-- BNNN JP V0, NNN (41_control_flow R113): the sum is not reduced modulo 4096. -/
def execJpV0Nnn (nnn : Addr12) (s : State) : Result := .next (s.setPc (zext16 nnn + zext16 (s.reg 0x0#4)))

/-- 3XNN SE VX, NN (41_control_flow R114). -/
def execSeVxNn (x : Nibble) (nn : Byte) (s : State) : Result := .next (s.skipIf (s.reg x == nn))

/-- 4XNN SNE VX, NN (41_control_flow R115). -/
def execSneVxNn (x : Nibble) (nn : Byte) (s : State) : Result := .next (s.skipIf (s.reg x != nn))

/-- 5XY0 SE VX, VY (41_control_flow R116). -/
def execSeVxVy (x y : Nibble) (s : State) : Result := .next (s.skipIf (s.reg x == s.reg y))

/-- 9XY0 SNE VX, VY (41_control_flow R117). -/
def execSneVxVy (x y : Nibble) (s : State) : Result := .next (s.skipIf (s.reg x != s.reg y))

end Sys2Proof.Machine
end

