-- ==== Sys2Proof/Machine/Display.lean ====
section
/-! DEFINITION. 00E0 CLS and DXYN DRW, the sprite-draw XOR engine with its collision detector (43_display R150 to R152). -/

namespace Sys2Proof.Machine

/-- 00E0 CLS (43_display R151). -/
def execCls (s : State) : Result := .next (s.setFb Frame.clear)

/-- One set sprite bit: flip the pixel, and note a collision when it was 1 (43_display R152). -/
def drawPixel (px py : Nat) (acc : Frame × Bool) : Frame × Bool := (acc.1.flip px py, acc.2 || acc.1.pixel px py)

/-- One sprite row `b` at display row `py` (already wrapped): column c is bit 7 - c (43_display R150, R152). -/
def drawRow (vx py : Nat) (b : Byte) (acc : Frame × Bool) : Frame × Bool :=
  (List.range 8).foldl (fun acc col => if b.getLsbD (7 - col) then drawPixel ((vx + col) % 64) py acc else acc) acc

/-- The sprite rows from row number `row` on, top row first (43_display R152). -/
def drawRows (vx vy row : Nat) (sprite : List Byte) (acc : Frame × Bool) : Frame × Bool :=
  match sprite with
  | [] => acc
  | b :: rest => drawRows vx vy (row + 1) rest (drawRow vx ((vy + row) % 32) b acc)

/-- The whole draw: the framebuffer after it and whether any pixel went from 1 to 0 (43_display R152). -/
def drawSprite (vx vy : Nat) (sprite : List Byte) (f : Frame) : Frame × Bool := drawRows vx vy 0 sprite (f, false)

/-- The draw of DXYN on a state whose sprite bytes are in range: `vx`, `vy` are read before VF is written, VF is the
collision flag of this draw alone (43_display R152, D15). -/
def State.draw (s : State) (x y n : Nibble) : State :=
  let d := drawSprite (s.reg x).toNat (s.reg y).toNat (s.bytesAt s.i.toNat n.toNat) s.fb
  (s.setFb d.1).setReg 0xF#4 (flagByte d.2)

/-- DXYN DRW VX, VY, N (43_display R152). -/
def execDrwVxVyN (x y n : Nibble) (s : State) : Result := s.withBlock n.toNat (s.draw x y n)

end Sys2Proof.Machine
end

