-- ==== Sys2Proof/Machine/Index.lean ====
section
/-! DEFINITION. Index register and memory instructions (45_index_memory R170 to R177). None changes I as a side effect of a load
or store (R177, D30). -/

namespace Sys2Proof.Machine

/-- ANNN LD I, NNN (45_index_memory R170). -/
def execLdINnn (nnn : Addr12) (s : State) : Result := .next (s.setI (zext16 nnn))

/-- FX1E ADD I, VX (45_index_memory R171): modulo 65536, VF not written. -/
def execAddIVx (x : Nibble) (s : State) : Result := .next (s.setI (s.i + zext16 (s.reg x)))

/-- FX29 LD F, VX (45_index_memory R172): the whole VX times 5. -/
def execLdFVx (x : Nibble) (s : State) : Result := .next (s.setI (zext16 (s.reg x) * 5#16))

/-- FX33 LD B, VX (45_index_memory R174). -/
def execLdBVx (x : Nibble) (s : State) : Result := s.withBlock 3 (s.store s.i.toNat (bcdDigits (s.reg x)))

/-- FX55 LD [I], VX (45_index_memory R175): V0 to VX, X + 1 bytes. -/
def execLdMemVx (x : Nibble) (s : State) : Result :=
  s.withBlock (x.toNat + 1) (s.store s.i.toNat (s.firstRegs (x.toNat + 1)))

/-- FX65 LD VX, [I] (45_index_memory R176): V0 to VX, X + 1 bytes. -/
def execLdVxMem (x : Nibble) (s : State) : Result :=
  s.withBlock (x.toNat + 1) (s.setRegs 0 (s.bytesAt s.i.toNat (x.toNat + 1)))

end Sys2Proof.Machine
end

