-- ==== Sys2Proof/Machine/Keypad.lean ====
section
/-! DEFINITION. Keypad and timer instructions (44_keypad_timers R160 to R166). The timer tick of the same cycle follows the
meaning and is in Machine/Cycle.lean. -/

namespace Sys2Proof.Machine

/-- EX9E SKP VX (44_keypad_timers R160, R166). -/
def execSkpVx (x : Nibble) (s : State) : Result :=
  match s.keyIndex x with
  | .ok k => .next (s.skipIf (s.keyDown k))
  | .error d => .next (s.raiseRange d)

/-- EXA1 SKNP VX (44_keypad_timers R161, R166). -/
def execSknpVx (x : Nibble) (s : State) : Result :=
  match s.keyIndex x with
  | .ok k => .next (s.skipIf (!s.keyDown k))
  | .error d => .next (s.raiseRange d)

/-- FX0A LD VX, K (44_keypad_timers R162): with no key down, PC goes back to the instruction itself, event KEY_WAIT. -/
def execLdVxK (x : Nibble) (s : State) : Result :=
  match s.firstKey with
  | some k => .next (s.setReg x (BitVec.ofNat 8 k))
  | none => .next ((s.setPc (s.pc - 2#16)).setEvent .keyWait)

/-- FX07 LD VX, DT (44_keypad_timers R163). -/
def execLdVxDt (x : Nibble) (s : State) : Result := .next (s.setReg x s.dt)

/-- FX15 LD DT, VX (44_keypad_timers R164). -/
def execLdDtVx (x : Nibble) (s : State) : Result := .next (s.setDt (s.reg x))

/-- FX18 LD ST, VX (44_keypad_timers R165). -/
def execLdStVx (x : Nibble) (s : State) : Result := .next (s.setSt (s.reg x))

end Sys2Proof.Machine
end

