-- ==== Sys2Proof/Machine/Step.lean ====
section
/-! DEFINITION. One cycle (40_cycle R90), and the placing of an instruction word where the next cycle fetches. -/

namespace Sys2Proof.Machine

/-- `Step` (40_cycle R90): one fetch, decode, execute, tick. A machine that is not running does nothing (R99). -/
def step (s : State) : Host.Outcome State Fault Refusal :=
  if s.run ≠ .running then .next s.clearOutputs
  else
    match s.beginCycle.fetch with
    | .ended t => .next t
    | .word w t =>
      match decodeWord t.cfg.opt8XY0 w with
      | .ok i => endCycle (exec i t)
      | .error _ => .next t.unknownWord

/-- `s` with the instruction of `nbits` bits and value `w` where `step` fetches next. A fetch refuses PC >= `PROG_END` and a
machine that is not RUNNING (40_cycle R91, R99), so the word also moves `PROG_END` past itself and the machine runs: this
stands for the load of a program (log entry 11). -/
def State.withFetchWord (s : State) (nbits w : Nat) : State := s.placeWord (BitVec.ofNat 16 (w % 2 ^ nbits))

end Sys2Proof.Machine
end

