-- ==== Sys2Proof/Machine/Load.lean ====
section
/-! DEFINITION. Reset and load as the environment does them before the first tick (70_reset_and_hazards R210, R213), for every
image, FONT_TABLE, MEM_INIT and FB_INIT. -/

namespace Sys2Proof.Machine

/-- `Load(image)` (70_reset_and_hazards R213): an image longer than 3584 bytes is rejected and nothing is written (D26). -/
def State.loadImage (s : State) (image : List Byte) : State × LoadResult :=
  if image.length > maxImage then (s, .oversize)
  else ((s.store progBase image).setProgEnd (progBase + image.length), .ok)

/-- `Reset(image, FONT_TABLE, MEM_INIT, FB_INIT)` of a machine built with the parameters `cfg` (70_reset_and_hazards R210):
4096 bytes of `memInit`, then the 80 bytes of `font` at 0, FB, every register and timer 0, then the load. -/
def State.resetWith (cfg : Config) (image font memInit : List Byte) (fbInit : Frame) : State × LoadResult :=
  let mem := Memory.writeList (Memory.writeList [] 0 (memInit.take memSize)) 0 (font.take 80)
  State.loadImage { State.reset with mem := mem, fb := fbInit, cfg := cfg } image

end Sys2Proof.Machine
end

