-- ==== Sys2Proof/Safety.lean ====
section
/-! DEFINITION. The terms claims are stated in: which parts of the state a step may change, the invariant of a machine that was
reset and loaded, the causes of FATAL_RANGE (60_exceptions R184), and the sprite geometry (43_display R150, R152). -/

namespace Sys2Proof.Machine

/-- A part of the state that a claim lets an instruction change. -/
inductive Part where
  | reg (x : Nibble)
  | i
  | pc
  | stack
  | dt
  | st
  | byte (a : Nat)
  | fb
  | keys
  | run
  | event
  | info
  | rnd
deriving DecidableEq, Repr

/-- The frame: `t` differs from `s` at most in the listed parts. Every register, every byte of memory as the model reads it,
every pixel and every other field outside the list is as before; `PROG_END` and the build parameters never change. -/
def KeepsExcept (ps : List Part) (s t : State) : Prop :=
  (∀ x, Part.reg x ∉ ps → t.reg x = s.reg x) ∧ (Part.i ∉ ps → t.i = s.i) ∧ (Part.pc ∉ ps → t.pc = s.pc) ∧
  (Part.stack ∉ ps → t.stack = s.stack) ∧ (Part.dt ∉ ps → t.dt = s.dt) ∧ (Part.st ∉ ps → t.st = s.st) ∧
  (∀ a, Part.byte a ∉ ps → t.mem.read a = s.mem.read a) ∧ (Part.fb ∉ ps → t.fb = s.fb) ∧
  (Part.keys ∉ ps → t.key = s.key ∧ t.keyFeed = s.keyFeed) ∧ (Part.run ∉ ps → t.run = s.run) ∧
  (Part.event ∉ ps → t.event = s.event) ∧ (Part.info ∉ ps → t.info = s.info) ∧
  (Part.rnd ∉ ps → t.rndFeed = s.rndFeed ∧ t.draws = s.draws) ∧ t.progEnd = s.progEnd ∧ t.cfg = s.cfg

/-- What holds of a machine that was reset and loaded, and what every cycle keeps: memory is in canonical form, `PROG_END` is
0x200 to 0x1000 (10_state R33), PC is at most 0x10FE and so never wraps, return addresses are at most 4097 (R26), a finite
stack holds at most `STACK_DEPTH` entries (R27). -/
def State.Inv (s : State) : Prop :=
  s.mem.wf = true ∧ 0x200 ≤ s.progEnd ∧ s.progEnd ≤ 0x1000 ∧ s.pc.toNat ≤ 0x10FE ∧ (∀ a ∈ s.stack, a.toNat ≤ 4097) ∧
  (∀ d, s.cfg.stackDepth = some d → s.stack.length ≤ d)

/-- The diagnosis the handler of `i` raises FATAL_RANGE with in state `s`, as the table of 60_exceptions R184 gives cause and
info; `none` where it does not raise it. -/
def rangeFault (i : Instr) (s : State) : Option RangeInfo :=
  match i with
  | .drwVxVyN _ _ n =>
    if n.toNat > 0 ∧ s.i.toNat + n.toNat - 1 > 4095 then some (.address (max s.i.toNat 4096)) else none
  | .ldBVx _ => if s.i.toNat + 2 > 4095 then some (.address (max s.i.toNat 4096)) else none
  | .ldMemVx x => if s.i.toNat + x.toNat > 4095 then some (.address (max s.i.toNat 4096)) else none
  | .ldVxMem x => if s.i.toNat + x.toNat > 4095 then some (.address (max s.i.toNat 4096)) else none
  | .skpVx x => if (s.reg x).toNat > 15 ∧ s.cfg.keyIndexPolicy = .fault then some (.keyIndex (s.reg x)) else none
  | .sknpVx x => if (s.reg x).toNat > 15 ∧ s.cfg.keyIndexPolicy = .fault then some (.keyIndex (s.reg x)) else none
  | .callNnn _ => if s.cfg.stackDepth = some s.stack.length then some .stackOverflow else none
  | .halt | .cls | .ret | .jpNnn _ | .seVxNn _ _ | .sneVxNn _ _ | .seVxVy _ _ | .ldVxNn _ _ | .addVxNn _ _ | .ldVxVy _ _
  | .orVxVy _ _ | .andVxVy _ _ | .xorVxVy _ _ | .addVxVy _ _ | .subVxVy _ _ | .shrVx _ _ | .subnVxVy _ _ | .shlVx _ _
  | .sneVxVy _ _ | .ldINnn _ | .jpV0Nnn _ | .rndVxNn _ _ | .ldVxDt _ | .ldVxK _ | .ldDtVx _ | .ldStVx _ | .addIVx _
  | .ldFVx _ => none

/-- A set bit of the sprite of `rows` bytes at `base` falls on the pixel (px, py) when the sprite is drawn at (vx, vy): row r is
the byte at base + r, column c is its bit 7 - c, and both axes wrap (43_display R150, R152). -/
def SpriteCovers (m : Memory) (base vx vy rows px py : Nat) : Prop :=
  ∃ row, row < rows ∧ ∃ col, col < 8 ∧ (m.read (base + row)).getLsbD (7 - col) = true ∧
    px = (vx + col) % 64 ∧ py = (vy + row) % 32

/-- The word the next fetch delivers: the byte at PC is its high byte, the byte at PC + 1 its low byte (20_memory R54). -/
def State.nextWord (s : State) : Word := wordOfBytes (s.mem.read s.pc.toNat) (s.mem.read (s.pc.toNat + 1))

/-- The state a handler is entered with: outputs cleared, keypad sampled, PC advanced by 2 (40_cycle R90, R92). -/
def State.entered (s : State) : State := s.beginCycle.setPc (s.pc + 2#16)

/-- A cycle of `s` fetches a word: it is running, PC is below `PROG_END` and the second byte is in range (40_cycle R91). -/
def State.fetches (s : State) : Prop := s.run = .running ∧ s.pc.toNat < s.progEnd ∧ s.pc.toNat < 4095

/-- A cycle of `s` executes `i`: it fetches a word that decodes to `i` (40_cycle R90, R93). -/
def State.executes (s : State) (i : Instr) : Prop := s.fetches ∧ decodeWord s.cfg.opt8XY0 s.nextWord = .ok i

/-- PC at the end of a cycle of `s` that executed `i` and raised no status condition: the table of 10_state R25, with pc0 the
PC of `s`. The key tests read the sample of this cycle. -/
def pcAfter (i : Instr) (s : State) : Nat :=
  let pc0 := s.pc.toNat
  let key := s.keyFeed.headD s.key
  match i with
  | .seVxNn x nn => if s.reg x = nn then pc0 + 4 else pc0 + 2
  | .sneVxNn x nn => if s.reg x ≠ nn then pc0 + 4 else pc0 + 2
  | .seVxVy x y => if s.reg x = s.reg y then pc0 + 4 else pc0 + 2
  | .sneVxVy x y => if s.reg x ≠ s.reg y then pc0 + 4 else pc0 + 2
  | .skpVx x => if key.getLsbD ((s.reg x).toNat % 16) = true then pc0 + 4 else pc0 + 2
  | .sknpVx x => if key.getLsbD ((s.reg x).toNat % 16) = false then pc0 + 4 else pc0 + 2
  | .jpNnn nnn => nnn.toNat
  | .callNnn nnn => nnn.toNat
  | .jpV0Nnn nnn => nnn.toNat + (s.reg 0x0#4).toNat
  | .ret => match s.stack with
    | [] => pc0 + 2
    | a :: _ => a.toNat
  | .ldVxK _ => if key = 0x0000#16 then pc0 else pc0 + 2
  | .halt | .cls | .ldVxNn _ _ | .addVxNn _ _ | .ldVxVy _ _ | .orVxVy _ _ | .andVxVy _ _ | .xorVxVy _ _ | .addVxVy _ _
  | .subVxVy _ _ | .shrVx _ _ | .subnVxVy _ _ | .shlVx _ _ | .ldINnn _ | .rndVxNn _ _ | .drwVxVyN _ _ _ | .ldVxDt _
  | .ldDtVx _ | .ldStVx _ | .addIVx _ | .ldFVx _ | .ldBVx _ | .ldMemVx _ | .ldVxMem _ => pc0 + 2

/-- `r` is a destination register of `i`: VX, or each of V0 to VX for FX65 (10_state R20, row V; 45_index_memory R176). -/
def isDestination (i : Instr) (r : Nibble) : Bool :=
  match i with
  | .ldVxNn x _ | .addVxNn x _ | .rndVxNn x _ | .ldVxDt x | .ldVxK x => x == r
  | .ldVxVy x _ | .orVxVy x _ | .andVxVy x _ | .xorVxVy x _ | .addVxVy x _ | .subVxVy x _ | .shrVx x _ | .subnVxVy x _
  | .shlVx x _ => x == r
  | .ldVxMem x => decide (r.toNat ≤ x.toNat)
  | .halt | .cls | .ret | .jpNnn _ | .callNnn _ | .seVxNn _ _ | .sneVxNn _ _ | .seVxVy _ _ | .sneVxVy _ _ | .ldINnn _
  | .jpV0Nnn _ | .drwVxVyN _ _ _ | .skpVx _ | .sknpVx _ | .ldDtVx _ | .ldStVx _ | .addIVx _ | .ldFVx _ | .ldBVx _
  | .ldMemVx _ => false

/-- `i` is one of the six flag writers of 10_state R22. -/
def isFlagWriter (i : Instr) : Bool :=
  match i with
  | .addVxVy _ _ | .subVxVy _ _ | .shrVx _ _ | .subnVxVy _ _ | .shlVx _ _ | .drwVxVyN _ _ _ => true
  | .halt | .cls | .ret | .jpNnn _ | .callNnn _ | .seVxNn _ _ | .sneVxNn _ _ | .seVxVy _ _ | .sneVxVy _ _ | .ldVxNn _ _
  | .addVxNn _ _ | .rndVxNn _ _ | .ldVxVy _ _ | .orVxVy _ _ | .andVxVy _ _ | .xorVxVy _ _ | .ldINnn _ | .jpV0Nnn _
  | .skpVx _ | .sknpVx _ | .ldVxDt _ | .ldVxK _ | .ldDtVx _ | .ldStVx _ | .addIVx _ | .ldFVx _ | .ldBVx _ | .ldMemVx _
  | .ldVxMem _ => false

/-- The handler of `i` moves PC: 00EE, 1NNN, 2NNN, BNNN, a skip or FX0A (10_state R20, row PC). -/
def movesPc (i : Instr) : Bool :=
  match i with
  | .ret | .jpNnn _ | .callNnn _ | .jpV0Nnn _ | .seVxNn _ _ | .sneVxNn _ _ | .seVxVy _ _ | .sneVxVy _ _ | .skpVx _
  | .sknpVx _ | .ldVxK _ => true
  | .halt | .cls | .ldVxNn _ _ | .addVxNn _ _ | .ldVxVy _ _ | .orVxVy _ _ | .andVxVy _ _ | .xorVxVy _ _ | .addVxVy _ _
  | .subVxVy _ _ | .shrVx _ _ | .subnVxVy _ _ | .shlVx _ _ | .ldINnn _ | .rndVxNn _ _ | .drwVxVyN _ _ _ | .ldVxDt _
  | .ldDtVx _ | .ldStVx _ | .addIVx _ | .ldFVx _ | .ldBVx _ | .ldMemVx _ | .ldVxMem _ => false

end Sys2Proof.Machine
end

