-- ==== Sys2Proof/Certificates/Slice0/Obligations.lean ====
section
/-! DEFINITION. The statements, each from the numbered rules of spec/. `KeepsExcept ps s t` is the frame: outside the listed parts
every register, every byte of memory, every pixel and every other field of `t` is as in `s` (Safety.lean). A meaning is entered
with PC already past the instruction (40_cycle R92), so "PC kept" in a statement about `exec` is PC = pc0 + 2. -/

open Sys2Proof Sys2Proof.Machine

/-! ### Encoding (30_encoding) -/

/-- Words written out from 30_encoding R75 and 95_test_vectors TE1 to TE16 decode to the instruction they stand for. -/
def Obligations.WrittenWordsDecode : Prop :=
  decodeWord true 0x12AB#16 = .ok (.jpNnn 0x2AB#12) ∧ decodeWord true 0xD012#16 = .ok (.drwVxVyN 0x0#4 0x1#4 0x2#4) ∧
  decodeWord true 0x8AB4#16 = .ok (.addVxVy 0xA#4 0xB#4) ∧ decodeWord true 0xF365#16 = .ok (.ldVxMem 0x3#4) ∧
  decodeWord true 0x0000#16 = .ok .halt ∧ decodeWord true 0x1000#16 = .ok (.jpNnn 0x000#12) ∧
  decodeWord true 0xE29E#16 = .ok (.skpVx 0x2#4) ∧ decodeWord true 0x00E1#16 = .error (.unknownWord 0x00E1#16) ∧
  decodeWord true 0x8120#16 = .ok (.ldVxVy 0x1#4 0x2#4) ∧ decodeWord false 0x8120#16 = .error (.unknownWord 0x8120#16) ∧
  decodeTableWord 16 0x8124 = some (.addVxVy 0x1#4 0x2#4)

/-- Decoding the encoding of any instruction the machine has gives it back, from the word and from its two bytes. -/
def Obligations.DecodeOfEncodeIsTheInstruction : Prop :=
  ∀ (opt : Bool) (i : Instr), i.wf opt = true →
    decodeWord opt (encode i) = .ok i ∧ decodeBytes opt (encodeBytes i) = .ok (i, [])

/-- Each word has one meaning: a word that decodes is the encoding of what it decodes to, which the machine has. -/
def Obligations.EncodeOfDecodeIsTheWord : Prop :=
  ∀ (opt : Bool) (w : Word) (i : Instr), decodeWord opt w = .ok i → encode i = w ∧ i.wf opt = true

/-- 30_encoding R74: a word selects an instruction if and only if (word & mask) = match for THAT instruction's row of the table
R75 (`tableRow`), and the operands are the fields of the word that the row's format names (R71, R72). -/
def Obligations.DecodedWordsAreTheTableRows : Prop :=
  ∀ (opt : Bool) (w : Word),
    (∀ i, decodeWord opt w = .ok i →
      tableRow i ∈ opcodeRows opt ∧ w &&& (tableRow i).mask = (tableRow i).pattern ∧ operandsAreFields i w) ∧
    (∀ r ∈ opcodeRows opt, w &&& r.mask = r.pattern → ∃ i, decodeWord opt w = .ok i ∧ tableRow i = r)

/-- 30_encoding R74: the patterns are pairwise disjoint. -/
def Obligations.TableRowsAreDisjoint : Prop :=
  (opcodeRows true).Pairwise fun r q => ∀ w : Word, ¬(w &&& r.mask = r.pattern ∧ w &&& q.mask = q.pattern)

/-- 30_encoding R80: the unknown words, group by group, and every other word is an instruction. -/
def Obligations.UnknownWordsAreTheListedGroups : Prop :=
  ∀ (opt : Bool) (w : Word), (decodeWord opt w = .error (.unknownWord w) ↔
    (fieldOp w = 0x0#4 ∧ w ≠ 0x0000#16 ∧ w ≠ 0x00E0#16 ∧ w ≠ 0x00EE#16) ∨
    (fieldOp w = 0x5#4 ∧ fieldN w ≠ 0x0#4) ∨
    (fieldOp w = 0x8#4 ∧ (fieldN w ∈ [0x8#4, 0x9#4, 0xA#4, 0xB#4, 0xC#4, 0xD#4, 0xF#4] ∨ (fieldN w = 0x0#4 ∧ opt = false))) ∨
    (fieldOp w = 0x9#4 ∧ fieldN w ≠ 0x0#4) ∨
    (fieldOp w = 0xE#4 ∧ fieldNN w ∉ [0x9E#8, 0xA1#8]) ∨
    (fieldOp w = 0xF#4 ∧ fieldNN w ∉ [0x07#8, 0x0A#8, 0x15#8, 0x18#8, 0x1E#8, 0x29#8, 0x33#8, 0x55#8, 0x65#8])) ∧
  (decodeWord opt w ≠ .error (.unknownWord w) → ∃ i, decodeWord opt w = .ok i)

/-! ### The cycle (40_cycle, 60_exceptions) -/

/-- A cycle that executes `i` enters its meaning with the outputs cleared, the keypad sampled (10_state R31; the feed is the
model's, log entry 4) and PC advanced by 2 (40_cycle R92), and then ticks the timers unless a status was raised (R90, R98). -/
def Obligations.StepRunsTheDecodedInstruction : Prop :=
  ∀ (s : State) (i : Instr), s.executes i →
    s.entered.pc = s.pc + 2#16 ∧ s.entered.key = s.keyFeed.headD s.key ∧ s.entered.keyFeed = s.keyFeed.tail ∧
    s.entered.event = .none ∧ s.entered.info = none ∧ KeepsExcept [.pc, .keys, .event, .info] s s.entered ∧
    step s = endCycle (exec i s.entered) ∧
    ∀ t, exec i s.entered = .next t → ∃ u, step s = .next u ∧
      (t.run = .running → u.dt.toNat = t.dt.toNat - 1 ∧ u.st.toNat = t.st.toNat - 1 ∧ KeepsExcept [.dt, .st] t u) ∧
      (t.run ≠ .running → u = t)

/-- 40_cycle R90: Step is total. Every state has a next state; no step ends in a fault or a refusal. -/
def Obligations.StepAlwaysAnswersANextState : Prop := ∀ s : State, ∃ t, step s = .next t

/-- 40_cycle R99, 60_exceptions R191: a tick of a machine that is not running changes nothing; its event is NONE. -/
def Obligations.MachineNotRunningDoesNothing : Prop :=
  ∀ s : State, s.run ≠ .running →
    ∃ t, step s = .next t ∧ t.event = .none ∧ t.info = none ∧ KeepsExcept [.event, .info] s t

/-- 40_cycle R91 (1), 60_exceptions R190: PC at or above `PROG_END` ends the run with HALT_END, PC not advanced, nothing else
changed, no timer tick. The keypad sample is the environment's (log entry 4). -/
def Obligations.FetchAtProgEndHalts : Prop :=
  ∀ s : State, s.run = .running → s.progEnd ≤ s.pc.toNat →
    ∃ t, step s = .next t ∧ t.run = .haltEnd ∧ t.event = .none ∧ t.info = none ∧
      KeepsExcept [.run, .event, .info, .keys] s t

/-- 40_cycle R91 (2), 60_exceptions R184: a fetch whose second byte is address 4096 raises FATAL_RANGE(4096), PC not advanced. -/
def Obligations.FetchAcrossTheTopIsFatal : Prop :=
  ∀ s : State, s.run = .running → s.progEnd ≤ 4096 → s.pc.toNat < s.progEnd → s.pc.toNat = 4095 →
    ∃ t, step s = .next t ∧ t.run = .fatalRange ∧ t.info = some (.address 4096) ∧ t.event = .none ∧
      KeepsExcept [.run, .event, .info, .keys] s t

/-- 40_cycle R95: the halt word sets RUN to HALT_ZERO and nothing else; in a cycle PC is pc0 + 2 and the timers do not tick. -/
def Obligations.HaltWordEndsTheRun : Prop :=
  (∀ s : State, ∃ t, exec .halt s = .next t ∧ t.run = .haltZero ∧ KeepsExcept [.run] s t) ∧
  ∀ s : State, s.fetches → s.nextWord = 0x0000#16 →
    ∃ t, step s = .next t ∧ t.run = .haltZero ∧ t.pc.toNat = s.pc.toNat + 2 ∧ t.event = .none ∧
      KeepsExcept [.run, .pc, .event, .info, .keys] s t

/-- 40_cycle R96: an unknown word is skipped (SKIP: PC = pc0 + 2, event UNKNOWN_SKIPPED, timers tick) or ends the run (HALT:
HALT_UNKNOWN, PC = pc0 + 2, no tick, event NONE). -/
def Obligations.UnknownWordFollowsThePolicy : Prop :=
  ∀ s : State, s.fetches → decodeWord s.cfg.opt8XY0 s.nextWord = .error (.unknownWord s.nextWord) →
    ∃ t, step s = .next t ∧ t.pc.toNat = s.pc.toNat + 2 ∧
      (s.cfg.unknownPolicy = .skip → t.run = .running ∧ t.event = .unknownSkipped ∧ t.dt.toNat = s.dt.toNat - 1 ∧
        t.st.toNat = s.st.toNat - 1 ∧ KeepsExcept [.pc, .event, .info, .keys, .dt, .st] s t) ∧
      (s.cfg.unknownPolicy = .halt → t.run = .haltUnknown ∧ t.event = .none ∧
        KeepsExcept [.run, .pc, .event, .info, .keys] s t)

/-- 10_state R25: PC at the end of a cycle that did not end in a halt or fatal status, for every instruction (`pcAfter` is the
table) and for an unknown word under SKIP; 2NNN has pushed pc0 + 2. Rows rest on the spec's decisions D3, D6, D7, D19 (log entry
19). -/
def Obligations.PcAfterACycleIsTheTable : Prop :=
  (∀ (s t : State) (i : Instr), s.executes i → step s = .next t → t.run = .running → t.pc.toNat = pcAfter i s) ∧
  (∀ (s t : State) (e : DecodeError), s.fetches → decodeWord s.cfg.opt8XY0 s.nextWord = .error e → step s = .next t →
    t.run = .running → t.pc.toNat = s.pc.toNat + 2) ∧
  (∀ (s t : State) (nnn : Addr12), s.executes (.callNnn nnn) → step s = .next t → t.run = .running →
    ∃ a : Word, t.stack = a :: s.stack ∧ a.toNat = s.pc.toNat + 2)

/-- 44_keypad_timers R163 to R165, 70_reset_and_hazards R216: the tick of the same cycle acts on the timer value just written;
FX07 reads DT before the tick. -/
def Obligations.TimerInstructionsTickInTheSameCycle : Prop :=
  (∀ (s : State) (x : Nibble), s.executes (.ldDtVx x) → ∃ t, step s = .next t ∧ t.dt.toNat = (s.reg x).toNat - 1 ∧
    t.st.toNat = s.st.toNat - 1) ∧
  (∀ (s : State) (x : Nibble), s.executes (.ldStVx x) → ∃ t, step s = .next t ∧ t.st.toNat = (s.reg x).toNat - 1 ∧
    t.dt.toNat = s.dt.toNat - 1) ∧
  (∀ (s : State) (x : Nibble), s.executes (.ldVxDt x) → ∃ t, step s = .next t ∧ t.reg x = s.dt ∧
    t.dt.toNat = s.dt.toNat - 1 ∧ t.st.toNat = s.st.toNat - 1)

/-- 60_exceptions R184, R190, 40_cycle R97: a handler raises FATAL_RANGE in exactly the cases of the table R184 (`rangeFault`),
with its info and with no other change; in every other case it answers a next state and leaves RUN alone, but for the halt
word. -/
def Obligations.RangeFaultsAreTheTable : Prop :=
  ∀ (i : Instr) (s : State), ∃ t, exec i s = .next t ∧
    (∀ d, rangeFault i s = some d → t.run = .fatalRange ∧ t.info = some d ∧ KeepsExcept [.run, .info] s t) ∧
    (rangeFault i s = none → t.info = s.info ∧ (i ≠ .halt → t.run = s.run))

/-! ### Invariants and whole-machine rules -/

/-- Every cycle keeps the invariant: memory canonical, `PROG_END` in its range, PC at most 0x10FE (10_state R26), return
addresses at most 4097, a finite stack within `STACK_DEPTH`. -/
def Obligations.StepKeepsTheInvariant : Prop := ∀ s t : State, s.Inv → step s = .next t → t.Inv

/-- The machine after reset with no program meets the invariant. -/
def Obligations.ResetMeetsTheInvariant : Prop := State.reset.Inv

/-- The machine after reset and load meets the invariant, for every image, FONT_TABLE, MEM_INIT, FB_INIT and parameters. -/
def Obligations.ResetAndLoadMeetTheInvariant : Prop :=
  ∀ (cfg : Config) (image font memInit : List Byte) (fbInit : Frame), (State.resetWith cfg image font memInit fbInit).1.Inv

/-- 10_state R33, 40_cycle R96: no cycle writes `PROG_END` or the build parameters. -/
def Obligations.StepKeepsProgEndAndParameters : Prop :=
  ∀ s t : State, step s = .next t → t.progEnd = s.progEnd ∧ t.cfg = s.cfg

/-- 40_cycle R94, 20_memory R63, 10_state R20: each part of the state is written by its own instructions only. A register is
written by an instruction whose destination it is, VF also by a flag writer; PC, in a handler, by a control transfer, a skip or
FX0A. RUN, the event and the diagnosis are written where a meaning raises a status (the halt word, FATAL_RANGE) or an event; the
diagnosis and the event as fields are the model's (log entry 12). -/
def Obligations.EachPartHasItsWriters : Prop :=
  ∀ (i : Instr) (s t : State), exec i s = .next t →
    (∀ r, t.reg r ≠ s.reg r → isDestination i r = true ∨ (isFlagWriter i = true ∧ r = 0xF#4)) ∧
    (t.i ≠ s.i → (∃ nnn, i = .ldINnn nnn) ∨ (∃ x, i = .addIVx x) ∨ ∃ x, i = .ldFVx x) ∧
    (t.pc ≠ s.pc → movesPc i = true) ∧
    (t.stack ≠ s.stack → i = .ret ∨ ∃ nnn, i = .callNnn nnn) ∧
    (t.dt ≠ s.dt → ∃ x, i = .ldDtVx x) ∧ (t.st ≠ s.st → ∃ x, i = .ldStVx x) ∧
    ((∃ a, t.mem.read a ≠ s.mem.read a) → (∃ x, i = .ldBVx x) ∨ ∃ x, i = .ldMemVx x) ∧
    (t.fb ≠ s.fb → i = .cls ∨ ∃ x y n, i = .drwVxVyN x y n) ∧ t.key = s.key ∧ t.keyFeed = s.keyFeed ∧
    t.progEnd = s.progEnd ∧ t.cfg = s.cfg ∧
    (t.run ≠ s.run → i = .halt ∨ rangeFault i s ≠ none) ∧ (t.info ≠ s.info → rangeFault i s ≠ none) ∧
    (t.event ≠ s.event → i = .ret ∨ ∃ x, i = .ldVxK x) ∧
    (t.draws ≠ s.draws ∨ t.rndFeed ≠ s.rndFeed → ∃ x nn, i = .rndVxNn x nn)

/-- 10_state R22: VF changes only by one of the six flag writers or by an instruction whose destination it is, and each flag
writer that completes leaves 0 or 1 in it, whatever its destination. -/
def Obligations.FlagHasItsWriters : Prop :=
  ∀ (i : Instr) (s t : State), exec i s = .next t →
    (t.reg 0xF#4 ≠ s.reg 0xF#4 → isFlagWriter i = true ∨ isDestination i 0xF#4 = true) ∧
    (isFlagWriter i = true → rangeFault i s = none → t.reg 0xF#4 = 0x00#8 ∨ t.reg 0xF#4 = 0x01#8)

/-! ### Control transfer (41_control_flow) -/

/-- R110: RET pops the top of the stack into PC, with nothing added; on an empty stack it is a no-op with the event
STACK_UNDERFLOW. -/
def Obligations.ReturnPopsOrFallsThrough : Prop :=
  (∀ (s : State) (a : Word) (rest : List Word), s.stack = a :: rest →
    ∃ t, exec .ret s = .next t ∧ t.pc = a ∧ t.stack = rest ∧ KeepsExcept [.pc, .stack] s t) ∧
  (∀ s : State, s.stack = [] → ∃ t, exec .ret s = .next t ∧ t.event = .stackUnderflow ∧ KeepsExcept [.event] s t)

/-- R111: JP NNN, its encoding, its effect, and the cycle that executes it: the timers tick, and a target at or above `PROG_END`
makes the next cycle end with HALT_END. -/
def Obligations.JumpSetsPc : Prop :=
  (∀ (s : State) (nnn : Addr12), decodeWord s.cfg.opt8XY0 (packNNN 0x1#4 nnn) = .ok (.jpNnn nnn) ∧
    ∃ t, exec (.jpNnn nnn) s = .next t ∧ t.pc.toNat = nnn.toNat ∧ KeepsExcept [.pc] s t) ∧
  (∀ (s : State) (nnn : Addr12), s.executes (.jpNnn nnn) → ∃ t, step s = .next t ∧ t.pc.toNat = nnn.toNat ∧
    t.dt.toNat = s.dt.toNat - 1 ∧ t.st.toNat = s.st.toNat - 1 ∧ t.run = .running ∧
    (s.progEnd ≤ nnn.toNat → ∃ u, step t = .next u ∧ u.run = .haltEnd))

/-- R112: CALL NNN pushes the address of the next instruction and jumps, unless a finite stack is full. -/
def Obligations.CallPushesAndJumps : Prop :=
  ∀ (s : State) (nnn : Addr12), s.cfg.stackDepth ≠ some s.stack.length →
    ∃ t, exec (.callNnn nnn) s = .next t ∧ t.stack = s.pc :: s.stack ∧ t.pc.toNat = nnn.toNat ∧
      KeepsExcept [.pc, .stack] s t

/-- R118 (4): calling and then returning restores PC to the instruction after the call, and the stack. -/
def Obligations.CallThenReturnRestoresPc : Prop :=
  ∀ (s : State) (nnn : Addr12), s.cfg.stackDepth ≠ some s.stack.length →
    ∃ t u, exec (.callNnn nnn) s = .next t ∧ exec .ret t = .next u ∧ u.pc = s.pc ∧ u.stack = s.stack ∧ KeepsExcept [] s u

/-- R113: JP V0, NNN adds V0 to NNN, not reduced modulo 4096. -/
def Obligations.JumpWithOffsetAddsV0 : Prop :=
  ∀ (s : State) (nnn : Addr12), ∃ t, exec (.jpV0Nnn nnn) s = .next t ∧
    t.pc.toNat = nnn.toNat + (s.reg 0x0#4).toNat ∧ KeepsExcept [.pc] s t

/-- R114, R115, R116: SE VX, NN; SNE VX, NN; SE VX, VY move PC past the next 2 bytes exactly on their match. -/
def Obligations.SkipsComparingRegisters : Prop :=
  ∀ (s : State) (x y : Nibble) (nn : Byte),
    (∃ t, exec (.seVxNn x nn) s = .next t ∧ t.pc = (if s.reg x = nn then s.pc + 2#16 else s.pc) ∧ KeepsExcept [.pc] s t) ∧
    (∃ t, exec (.sneVxNn x nn) s = .next t ∧ t.pc = (if s.reg x = nn then s.pc else s.pc + 2#16) ∧ KeepsExcept [.pc] s t) ∧
    (∃ t, exec (.seVxVy x y) s = .next t ∧ t.pc = (if s.reg x = s.reg y then s.pc + 2#16 else s.pc) ∧ KeepsExcept [.pc] s t)

/-- R117: SNE VX, VY, its encoding (N != 0 is an unknown word) and its effect; X = Y never skips. -/
def Obligations.SkipIfRegistersDiffer : Prop :=
  ∀ (s : State) (x y : Nibble), decodeWord s.cfg.opt8XY0 (packXYN 0x9#4 x y 0x0#4) = .ok (.sneVxVy x y) ∧
    (∀ n : Nibble, n ≠ 0x0#4 →
      decodeWord s.cfg.opt8XY0 (packXYN 0x9#4 x y n) = .error (.unknownWord (packXYN 0x9#4 x y n))) ∧
    ∃ t, exec (.sneVxVy x y) s = .next t ∧ t.pc = (if s.reg x ≠ s.reg y then s.pc + 2#16 else s.pc) ∧
      (x = y → t.pc = s.pc) ∧ KeepsExcept [.pc] s t

/-! ### Load, arithmetic, logic, shift, random (42_alu) -/

/-- R130, R132: LD VX, NN and LD VX, VY write the register, no flag. -/
def Obligations.LoadsWriteTheRegister : Prop :=
  ∀ (s : State) (x y : Nibble) (nn : Byte),
    (∃ t, exec (.ldVxNn x nn) s = .next t ∧ t.reg x = nn ∧ KeepsExcept [.reg x] s t) ∧
    (∃ t, exec (.ldVxVy x y) s = .next t ∧ t.reg x = s.reg y ∧ KeepsExcept [.reg x] s t)

/-- R131: ADD VX, NN, its encoding and its effect: modulo 256, VF not written (unless it is the destination). -/
def Obligations.AddImmediateWrapsAndSetsNoFlag : Prop :=
  ∀ (s : State) (x : Nibble) (nn : Byte), decodeWord s.cfg.opt8XY0 (packXNN 0x7#4 x nn) = .ok (.addVxNn x nn) ∧
    ∃ t, exec (.addVxNn x nn) s = .next t ∧ (t.reg x).toNat = ((s.reg x).toNat + nn.toNat) % 256 ∧
      KeepsExcept [.reg x] s t

/-- R133, R134, R135: OR, AND, XOR, bit by bit; VF not written (unless it is the destination, D13). -/
def Obligations.LogicIsBitwise : Prop :=
  ∀ (s : State) (x y : Nibble),
    (∃ t, exec (.orVxVy x y) s = .next t ∧
      (∀ k, (t.reg x).getLsbD k = ((s.reg x).getLsbD k || (s.reg y).getLsbD k)) ∧ KeepsExcept [.reg x] s t) ∧
    (∃ t, exec (.andVxVy x y) s = .next t ∧
      (∀ k, (t.reg x).getLsbD k = ((s.reg x).getLsbD k && (s.reg y).getLsbD k)) ∧ KeepsExcept [.reg x] s t) ∧
    (∃ t, exec (.xorVxVy x y) s = .next t ∧
      (∀ k, (t.reg x).getLsbD k = ((s.reg x).getLsbD k ^^ (s.reg y).getLsbD k)) ∧ KeepsExcept [.reg x] s t)

/-- R136, R143: ADD VX, VY: the sum modulo 256 in VX unless X = 0xF, and VF = 1 exactly on a sum above 255, else 0. -/
def Obligations.AddSetsCarry : Prop :=
  ∀ (s : State) (x y : Nibble), ∃ t, exec (.addVxVy x y) s = .next t ∧
    (x ≠ 0xF#4 → (t.reg x).toNat = ((s.reg x).toNat + (s.reg y).toNat) % 256) ∧
    (t.reg 0xF#4).toNat = (if (s.reg x).toNat + (s.reg y).toNat > 255 then 1 else 0) ∧ KeepsExcept [.reg x, .reg 0xF#4] s t

/-- R137, R139, R143: SUB and SUBN: the difference modulo 256 in VX unless X = 0xF, and VF = 0 exactly on a borrow, else 1. -/
def Obligations.SubtractSetsNoBorrow : Prop :=
  ∀ (s : State) (x y : Nibble),
    (∃ t, exec (.subVxVy x y) s = .next t ∧
      (x ≠ 0xF#4 → (t.reg x).toNat = if (s.reg x).toNat ≥ (s.reg y).toNat then (s.reg x).toNat - (s.reg y).toNat
        else (s.reg x).toNat + 256 - (s.reg y).toNat) ∧
      (t.reg 0xF#4).toNat = (if (s.reg y).toNat > (s.reg x).toNat then 0 else 1) ∧ KeepsExcept [.reg x, .reg 0xF#4] s t) ∧
    (∃ t, exec (.subnVxVy x y) s = .next t ∧
      (x ≠ 0xF#4 → (t.reg x).toNat = if (s.reg y).toNat ≥ (s.reg x).toNat then (s.reg y).toNat - (s.reg x).toNat
        else (s.reg y).toNat + 256 - (s.reg x).toNat) ∧
      (t.reg 0xF#4).toNat = (if (s.reg x).toNat > (s.reg y).toNat then 0 else 1) ∧ KeepsExcept [.reg x, .reg 0xF#4] s t)

/-- R138, R140, R143: SHR and SHL shift VX by one, VF is the bit shifted out, the Y nibble has no effect. -/
def Obligations.ShiftsByOneSetTheDroppedBit : Prop :=
  ∀ (s : State) (x y : Nibble),
    (∃ t, exec (.shrVx x y) s = .next t ∧ (x ≠ 0xF#4 → (t.reg x).toNat = (s.reg x).toNat / 2) ∧
      (t.reg 0xF#4).toNat = (s.reg x).toNat % 2 ∧ KeepsExcept [.reg x, .reg 0xF#4] s t) ∧
    (∃ t, exec (.shlVx x y) s = .next t ∧ (x ≠ 0xF#4 → (t.reg x).toNat = (s.reg x).toNat * 2 % 256) ∧
      (t.reg 0xF#4).toNat = (s.reg x).toNat / 128 ∧ KeepsExcept [.reg x, .reg 0xF#4] s t)

/-- R141: RND VX, NN writes rnd & NN, where rnd is the byte the environment lined up, or, when it lined none up, a free value
(log entry 5), and reads rnd once. -/
def Obligations.RandomIsMaskedByNn : Prop :=
  (∀ (s : State) (x : Nibble) (nn b : Byte) (rest : List Byte), s.rndFeed = b :: rest →
    ∃ t, exec (.rndVxNn x nn) s = .next t ∧ t.reg x = b &&& nn ∧ t.rndFeed = rest ∧ KeepsExcept [.reg x, .rnd] s t) ∧
  (∀ (s : State) (x : Nibble) (nn : Byte), s.rndFeed = [] →
    ∃ t, exec (.rndVxNn x nn) s = .next t ∧ t.reg x = Config.rndByte s.draws &&& nn ∧ t.draws = s.draws + 1 ∧
      KeepsExcept [.reg x, .rnd] s t)

/-! ### Display (43_display) -/

/-- R151: CLS, its encoding and its effect: every cell 0, VF not written. -/
def Obligations.ClearScreenClearsEveryCell : Prop :=
  ∀ s : State, decodeWord s.cfg.opt8XY0 0x00E0#16 = .ok .cls ∧
    ∃ t, exec .cls s = .next t ∧ (∀ px py, px < 64 → py < 32 → t.fb.pixel px py = false) ∧ KeepsExcept [.fb] s t

/-- R150, R152 (bit order: the spec's general knowledge, log entry 10): DRW with its sprite in range flips exactly the pixels
that a set sprite bit covers; VF is 1 if a pixel that was 1 is now 0, else 0; nothing else changes. -/
def Obligations.DrawFlipsTheCoveredPixels : Prop :=
  ∀ (s : State) (x y n : Nibble), (n.toNat = 0 ∨ s.i.toNat + n.toNat - 1 ≤ 4095) →
    ∃ t, exec (.drwVxVyN x y n) s = .next t ∧
      (∀ px py, px < 64 → py < 32 → (t.fb.pixel px py ≠ s.fb.pixel px py ↔
        SpriteCovers s.mem s.i.toNat (s.reg x).toNat (s.reg y).toNat n.toNat px py)) ∧
      (t.reg 0xF#4 = 0x01#8 ∧ (∃ px py, px < 64 ∧ py < 32 ∧ s.fb.pixel px py = true ∧ t.fb.pixel px py = false) ∨
        t.reg 0xF#4 = 0x00#8 ∧ ¬∃ px py, px < 64 ∧ py < 32 ∧ s.fb.pixel px py = true ∧ t.fb.pixel px py = false) ∧
      KeepsExcept [.fb, .reg 0xF#4] s t

/-- R153: the same DRW twice, with I, VX, VY and the sprite bytes unchanged between the two, leaves FB as before the first; VF
after the first is 1 exactly when some pixel under a set sprite bit was 1 before it, and after the second exactly when some
such pixel was 0 before the first; the pixels flipped wrap modulo 64 and 32 (`SpriteCovers`, with the bit order of log entry 10). `s'` is the state before the
second draw. -/
def Obligations.DrawTwiceRestoresTheFramebuffer : Prop :=
  ∀ (s s' : State) (x y n : Nibble), (n.toNat = 0 ∨ s.i.toNat + n.toNat - 1 ≤ 4095) → s'.i = s.i →
    s'.reg x = s.reg x → s'.reg y = s.reg y →
    (∀ k, k < n.toNat → s'.mem.read (s.i.toNat + k) = s.mem.read (s.i.toNat + k)) →
    ∃ t, exec (.drwVxVyN x y n) s = .next t ∧
      (∀ px py, px < 64 → py < 32 → (t.fb.pixel px py ≠ s.fb.pixel px py ↔
        SpriteCovers s.mem s.i.toNat (s.reg x).toNat (s.reg y).toNat n.toNat px py)) ∧
      (t.reg 0xF#4 = 0x01#8 ↔ ∃ px py,
        SpriteCovers s.mem s.i.toNat (s.reg x).toNat (s.reg y).toNat n.toNat px py ∧ s.fb.pixel px py = true) ∧
      (s'.fb = t.fb → ∃ u, exec (.drwVxVyN x y n) s' = .next u ∧ u.fb = s.fb ∧
        (u.reg 0xF#4 = 0x01#8 ↔ ∃ px py,
          SpriteCovers s.mem s.i.toNat (s.reg x).toNat (s.reg y).toNat n.toNat px py ∧ s.fb.pixel px py = false))

/-! ### Keypad and timers (44_keypad_timers) -/

/-- R160, R161, R166: SKP and SKNP skip exactly when key VX is, or is not, pressed in this cycle's sample; VX above 15 is taken
modulo 16 under MASK (under FAULT it is fatal: `RangeFaultsAreTheTable`). -/
def Obligations.KeySkipsTestTheKey : Prop :=
  ∀ (s : State) (x : Nibble), ((s.reg x).toNat ≤ 15 ∨ s.cfg.keyIndexPolicy = .mask) →
    (∃ t, exec (.skpVx x) s = .next t ∧
      t.pc = (if s.key.getLsbD ((s.reg x).toNat % 16) = true then s.pc + 2#16 else s.pc) ∧ KeepsExcept [.pc] s t) ∧
    (∃ t, exec (.sknpVx x) s = .next t ∧
      t.pc = (if s.key.getLsbD ((s.reg x).toNat % 16) = false then s.pc + 2#16 else s.pc) ∧ KeepsExcept [.pc] s t)

/-- R162: FX0A stores the least pressed key; with none pressed PC goes back to the instruction, VX is unchanged and the event is
KEY_WAIT. -/
def Obligations.WaitForKeyTakesTheLeastOrWaits : Prop :=
  (∀ (s : State) (x : Nibble) (k : Nat), k < 16 → s.key.getLsbD k = true → (∀ j, j < k → s.key.getLsbD j = false) →
    ∃ t, exec (.ldVxK x) s = .next t ∧ (t.reg x).toNat = k ∧ KeepsExcept [.reg x] s t) ∧
  (∀ (s : State) (x : Nibble), s.key = 0x0000#16 →
    ∃ t, exec (.ldVxK x) s = .next t ∧ t.pc = s.pc - 2#16 ∧ t.event = .keyWait ∧ KeepsExcept [.pc, .event] s t)

/-- R163, R164, R165: the copies between VX and the timers (the tick follows the handler). -/
def Obligations.TimerCopies : Prop :=
  ∀ (s : State) (x : Nibble),
    (∃ t, exec (.ldVxDt x) s = .next t ∧ t.reg x = s.dt ∧ KeepsExcept [.reg x] s t) ∧
    (∃ t, exec (.ldDtVx x) s = .next t ∧ t.dt = s.reg x ∧ KeepsExcept [.dt] s t) ∧
    (∃ t, exec (.ldStVx x) s = .next t ∧ t.st = s.reg x ∧ KeepsExcept [.st] s t)

/-! ### Index register and memory (45_index_memory) -/

/-- R170, R171, R172: LD I, NNN; ADD I, VX modulo 65536 with no flag; LD F, VX = 5 * VX. -/
def Obligations.IndexRegisterWrites : Prop :=
  ∀ (s : State) (x : Nibble) (nnn : Addr12),
    (∃ t, exec (.ldINnn nnn) s = .next t ∧ t.i.toNat = nnn.toNat ∧ KeepsExcept [.i] s t) ∧
    (∃ t, exec (.addIVx x) s = .next t ∧ t.i.toNat = (s.i.toNat + (s.reg x).toNat) % 65536 ∧ KeepsExcept [.i] s t) ∧
    (∃ t, exec (.ldFVx x) s = .next t ∧ t.i.toNat = 5 * (s.reg x).toNat ∧ KeepsExcept [.i] s t)

/-- R174: FX33 stores the decimal digits of VX at I, I + 1, I + 2; no other byte, no register, not I. -/
def Obligations.BcdStoresTheDigits : Prop :=
  ∀ (s : State) (x : Nibble), s.i.toNat + 2 ≤ 4095 →
    ∃ t, exec (.ldBVx x) s = .next t ∧ (t.mem.read s.i.toNat).toNat = (s.reg x).toNat / 100 ∧
      (t.mem.read (s.i.toNat + 1)).toNat = (s.reg x).toNat / 10 % 10 ∧
      (t.mem.read (s.i.toNat + 2)).toNat = (s.reg x).toNat % 10 ∧
      KeepsExcept [.byte s.i.toNat, .byte (s.i.toNat + 1), .byte (s.i.toNat + 2)] s t

/-- R175: FX55 stores V0 to VX at I to I + X in ascending order; no other byte, no register, not I. -/
def Obligations.BlockStoreWritesTheRegisters : Prop :=
  ∀ (s : State) (x : Nibble), s.i.toNat + x.toNat ≤ 4095 →
    ∃ t, exec (.ldMemVx x) s = .next t ∧
      (∀ k : Nibble, k.toNat ≤ x.toNat → t.mem.read (s.i.toNat + k.toNat) = s.reg k) ∧
      KeepsExcept ((List.range (x.toNat + 1)).map fun k => .byte (s.i.toNat + k)) s t

/-- R176: FX65 loads V0 to VX from I to I + X; registers above VX, I and memory unchanged. -/
def Obligations.BlockLoadReadsTheRegisters : Prop :=
  ∀ (s : State) (x : Nibble), s.i.toNat + x.toNat ≤ 4095 →
    ∃ t, exec (.ldVxMem x) s = .next t ∧
      (∀ k : Nibble, k.toNat ≤ x.toNat → t.reg k = s.mem.read (s.i.toNat + k.toNat)) ∧
      KeepsExcept ((List.range (x.toNat + 1)).map fun k => .reg (BitVec.ofNat 4 k)) s t

/-- 20_memory R61: a word stored by FX55 is the word the next fetch at I delivers (`t'` is the state after the store with PC at
I). -/
def Obligations.StoredWordIsFetched : Prop :=
  ∀ (s : State) (x : Nibble), 1 ≤ x.toNat → s.i.toNat + x.toNat ≤ 4095 →
    ∃ t, exec (.ldMemVx x) s = .next t ∧
      (t.setPc s.i).nextWord.toNat = (s.reg 0x0#4).toNat * 256 + (s.reg 0x1#4).toNat

/-! ### Reset and load (10_state R41, 70_reset_and_hazards) -/

/-- 10_state R41, 70 R210, R213: the state after reset and load, for every image of at most 3584 bytes, FONT_TABLE, MEM_INIT and
FB_INIT. Inputs, outputs and feeds at reset are the model's (log entries 4, 5, 6, 12) and not stated. -/
def Obligations.ResetAndLoadLeaveTheTable : Prop :=
  ∀ (cfg : Config) (image font memInit : List Byte) (fbInit : Frame), image.length ≤ 3584 → font.length = 80 →
    memInit.length = 4096 → ∃ s, State.resetWith cfg image font memInit fbInit = (s, .ok) ∧
      s.pc = 0x0200#16 ∧ (∀ x, s.reg x = 0x00#8) ∧ s.dt = 0x00#8 ∧ s.st = 0x00#8 ∧ s.i = 0x0000#16 ∧ s.stack = [] ∧
      s.run = .running ∧ s.progEnd = 0x200 + image.length ∧ s.fb = fbInit ∧ s.cfg = cfg ∧
      (∀ a, a < 4096 → s.mem.read a =
        if 0x200 ≤ a ∧ a < 0x200 + image.length then image.getD (a - 0x200) 0x00#8
        else if a < 80 then font.getD a 0x00#8 else memInit.getD a 0x00#8)

/-- 70_reset_and_hazards R213, 60_exceptions R185: an image above 3584 bytes is rejected, nothing of it is written, `PROG_END`
stays 0x200, and the first cycle ends with HALT_END. -/
def Obligations.OversizedImageIsRejected : Prop :=
  ∀ (cfg : Config) (image font memInit : List Byte) (fbInit : Frame), image.length > 3584 →
    ∃ s t, State.resetWith cfg image font memInit fbInit = (s, .oversize) ∧
      State.resetWith cfg [] font memInit fbInit = (s, .ok) ∧ s.progEnd = 0x200 ∧ step s = .next t ∧ t.run = .haltEnd

/-- `State.reset` is the reset of R210 with an empty image, the default FONT_TABLE, MEM_INIT as unlisted memory reads and FB all 0
(the last two are the model's choices, log entries 7 and 8). -/
def Obligations.ResetIsAnInstanceOfTheLoad : Prop :=
  State.resetWith Config.default [] fontTable ((List.range 4096).map unlistedByte) Frame.clear = (State.reset, .ok)
end

