-- ==== Sys2Proof/Laws/State.lean ====
section
/-! SUPPORT. One lemma per field per update of the state, so that no proof unfolds an update. -/

namespace Sys2Proof.Machine

variable (s : State)

@[simp] theorem State.setReg_i (x : Nibble) (b : Byte) : (s.setReg x b).i = s.i := rfl
@[simp] theorem State.setReg_pc (x : Nibble) (b : Byte) : (s.setReg x b).pc = s.pc := rfl
@[simp] theorem State.setReg_stack (x : Nibble) (b : Byte) : (s.setReg x b).stack = s.stack := rfl
@[simp] theorem State.setReg_dt (x : Nibble) (b : Byte) : (s.setReg x b).dt = s.dt := rfl
@[simp] theorem State.setReg_st (x : Nibble) (b : Byte) : (s.setReg x b).st = s.st := rfl
@[simp] theorem State.setReg_mem (x : Nibble) (b : Byte) : (s.setReg x b).mem = s.mem := rfl
@[simp] theorem State.setReg_fb (x : Nibble) (b : Byte) : (s.setReg x b).fb = s.fb := rfl
@[simp] theorem State.setReg_key (x : Nibble) (b : Byte) : (s.setReg x b).key = s.key := rfl
@[simp] theorem State.setReg_progEnd (x : Nibble) (b : Byte) : (s.setReg x b).progEnd = s.progEnd := rfl
@[simp] theorem State.setReg_run (x : Nibble) (b : Byte) : (s.setReg x b).run = s.run := rfl
@[simp] theorem State.setReg_event (x : Nibble) (b : Byte) : (s.setReg x b).event = s.event := rfl
@[simp] theorem State.setReg_info (x : Nibble) (b : Byte) : (s.setReg x b).info = s.info := rfl
@[simp] theorem State.setReg_keyFeed (x : Nibble) (b : Byte) : (s.setReg x b).keyFeed = s.keyFeed := rfl
@[simp] theorem State.setReg_rndFeed (x : Nibble) (b : Byte) : (s.setReg x b).rndFeed = s.rndFeed := rfl
@[simp] theorem State.setReg_draws (x : Nibble) (b : Byte) : (s.setReg x b).draws = s.draws := rfl
@[simp] theorem State.setReg_cfg (x : Nibble) (b : Byte) : (s.setReg x b).cfg = s.cfg := rfl

@[simp] theorem State.setI_v (a : Word) : (s.setI a).v = s.v := rfl
@[simp] theorem State.setI_i (a : Word) : (s.setI a).i = a := rfl
@[simp] theorem State.setI_pc (a : Word) : (s.setI a).pc = s.pc := rfl
@[simp] theorem State.setI_stack (a : Word) : (s.setI a).stack = s.stack := rfl
@[simp] theorem State.setI_dt (a : Word) : (s.setI a).dt = s.dt := rfl
@[simp] theorem State.setI_st (a : Word) : (s.setI a).st = s.st := rfl
@[simp] theorem State.setI_mem (a : Word) : (s.setI a).mem = s.mem := rfl
@[simp] theorem State.setI_fb (a : Word) : (s.setI a).fb = s.fb := rfl
@[simp] theorem State.setI_key (a : Word) : (s.setI a).key = s.key := rfl
@[simp] theorem State.setI_progEnd (a : Word) : (s.setI a).progEnd = s.progEnd := rfl
@[simp] theorem State.setI_run (a : Word) : (s.setI a).run = s.run := rfl
@[simp] theorem State.setI_event (a : Word) : (s.setI a).event = s.event := rfl
@[simp] theorem State.setI_info (a : Word) : (s.setI a).info = s.info := rfl
@[simp] theorem State.setI_keyFeed (a : Word) : (s.setI a).keyFeed = s.keyFeed := rfl
@[simp] theorem State.setI_rndFeed (a : Word) : (s.setI a).rndFeed = s.rndFeed := rfl
@[simp] theorem State.setI_draws (a : Word) : (s.setI a).draws = s.draws := rfl
@[simp] theorem State.setI_cfg (a : Word) : (s.setI a).cfg = s.cfg := rfl
@[simp] theorem State.setI_reg (a : Word) (y : Nibble) : (s.setI a).reg y = s.reg y := rfl

@[simp] theorem State.setPc_v (a : Word) : (s.setPc a).v = s.v := rfl
@[simp] theorem State.setPc_i (a : Word) : (s.setPc a).i = s.i := rfl
@[simp] theorem State.setPc_pc (a : Word) : (s.setPc a).pc = a := rfl
@[simp] theorem State.setPc_stack (a : Word) : (s.setPc a).stack = s.stack := rfl
@[simp] theorem State.setPc_dt (a : Word) : (s.setPc a).dt = s.dt := rfl
@[simp] theorem State.setPc_st (a : Word) : (s.setPc a).st = s.st := rfl
@[simp] theorem State.setPc_mem (a : Word) : (s.setPc a).mem = s.mem := rfl
@[simp] theorem State.setPc_fb (a : Word) : (s.setPc a).fb = s.fb := rfl
@[simp] theorem State.setPc_key (a : Word) : (s.setPc a).key = s.key := rfl
@[simp] theorem State.setPc_progEnd (a : Word) : (s.setPc a).progEnd = s.progEnd := rfl
@[simp] theorem State.setPc_run (a : Word) : (s.setPc a).run = s.run := rfl
@[simp] theorem State.setPc_event (a : Word) : (s.setPc a).event = s.event := rfl
@[simp] theorem State.setPc_info (a : Word) : (s.setPc a).info = s.info := rfl
@[simp] theorem State.setPc_keyFeed (a : Word) : (s.setPc a).keyFeed = s.keyFeed := rfl
@[simp] theorem State.setPc_rndFeed (a : Word) : (s.setPc a).rndFeed = s.rndFeed := rfl
@[simp] theorem State.setPc_draws (a : Word) : (s.setPc a).draws = s.draws := rfl
@[simp] theorem State.setPc_cfg (a : Word) : (s.setPc a).cfg = s.cfg := rfl
@[simp] theorem State.setPc_reg (a : Word) (y : Nibble) : (s.setPc a).reg y = s.reg y := rfl

@[simp] theorem State.setMem_v (m : Memory) : (s.setMem m).v = s.v := rfl
@[simp] theorem State.setMem_i (m : Memory) : (s.setMem m).i = s.i := rfl
@[simp] theorem State.setMem_pc (m : Memory) : (s.setMem m).pc = s.pc := rfl
@[simp] theorem State.setMem_stack (m : Memory) : (s.setMem m).stack = s.stack := rfl
@[simp] theorem State.setMem_dt (m : Memory) : (s.setMem m).dt = s.dt := rfl
@[simp] theorem State.setMem_st (m : Memory) : (s.setMem m).st = s.st := rfl
@[simp] theorem State.setMem_mem (m : Memory) : (s.setMem m).mem = m := rfl
@[simp] theorem State.setMem_fb (m : Memory) : (s.setMem m).fb = s.fb := rfl
@[simp] theorem State.setMem_key (m : Memory) : (s.setMem m).key = s.key := rfl
@[simp] theorem State.setMem_progEnd (m : Memory) : (s.setMem m).progEnd = s.progEnd := rfl
@[simp] theorem State.setMem_run (m : Memory) : (s.setMem m).run = s.run := rfl
@[simp] theorem State.setMem_event (m : Memory) : (s.setMem m).event = s.event := rfl
@[simp] theorem State.setMem_info (m : Memory) : (s.setMem m).info = s.info := rfl
@[simp] theorem State.setMem_keyFeed (m : Memory) : (s.setMem m).keyFeed = s.keyFeed := rfl
@[simp] theorem State.setMem_rndFeed (m : Memory) : (s.setMem m).rndFeed = s.rndFeed := rfl
@[simp] theorem State.setMem_draws (m : Memory) : (s.setMem m).draws = s.draws := rfl
@[simp] theorem State.setMem_cfg (m : Memory) : (s.setMem m).cfg = s.cfg := rfl
@[simp] theorem State.setMem_reg (m : Memory) (y : Nibble) : (s.setMem m).reg y = s.reg y := rfl

@[simp] theorem State.setStack_v (l : List Word) : (s.setStack l).v = s.v := rfl
@[simp] theorem State.setStack_i (l : List Word) : (s.setStack l).i = s.i := rfl
@[simp] theorem State.setStack_pc (l : List Word) : (s.setStack l).pc = s.pc := rfl
@[simp] theorem State.setStack_stack (l : List Word) : (s.setStack l).stack = l := rfl
@[simp] theorem State.setStack_dt (l : List Word) : (s.setStack l).dt = s.dt := rfl
@[simp] theorem State.setStack_st (l : List Word) : (s.setStack l).st = s.st := rfl
@[simp] theorem State.setStack_mem (l : List Word) : (s.setStack l).mem = s.mem := rfl
@[simp] theorem State.setStack_fb (l : List Word) : (s.setStack l).fb = s.fb := rfl
@[simp] theorem State.setStack_key (l : List Word) : (s.setStack l).key = s.key := rfl
@[simp] theorem State.setStack_progEnd (l : List Word) : (s.setStack l).progEnd = s.progEnd := rfl
@[simp] theorem State.setStack_run (l : List Word) : (s.setStack l).run = s.run := rfl
@[simp] theorem State.setStack_event (l : List Word) : (s.setStack l).event = s.event := rfl
@[simp] theorem State.setStack_info (l : List Word) : (s.setStack l).info = s.info := rfl
@[simp] theorem State.setStack_keyFeed (l : List Word) : (s.setStack l).keyFeed = s.keyFeed := rfl
@[simp] theorem State.setStack_rndFeed (l : List Word) : (s.setStack l).rndFeed = s.rndFeed := rfl
@[simp] theorem State.setStack_draws (l : List Word) : (s.setStack l).draws = s.draws := rfl
@[simp] theorem State.setStack_cfg (l : List Word) : (s.setStack l).cfg = s.cfg := rfl
@[simp] theorem State.setStack_reg (l : List Word) (y : Nibble) : (s.setStack l).reg y = s.reg y := rfl

@[simp] theorem State.setDt_v (b : Byte) : (s.setDt b).v = s.v := rfl
@[simp] theorem State.setDt_i (b : Byte) : (s.setDt b).i = s.i := rfl
@[simp] theorem State.setDt_pc (b : Byte) : (s.setDt b).pc = s.pc := rfl
@[simp] theorem State.setDt_stack (b : Byte) : (s.setDt b).stack = s.stack := rfl
@[simp] theorem State.setDt_dt (b : Byte) : (s.setDt b).dt = b := rfl
@[simp] theorem State.setDt_st (b : Byte) : (s.setDt b).st = s.st := rfl
@[simp] theorem State.setDt_mem (b : Byte) : (s.setDt b).mem = s.mem := rfl
@[simp] theorem State.setDt_fb (b : Byte) : (s.setDt b).fb = s.fb := rfl
@[simp] theorem State.setDt_key (b : Byte) : (s.setDt b).key = s.key := rfl
@[simp] theorem State.setDt_progEnd (b : Byte) : (s.setDt b).progEnd = s.progEnd := rfl
@[simp] theorem State.setDt_run (b : Byte) : (s.setDt b).run = s.run := rfl
@[simp] theorem State.setDt_event (b : Byte) : (s.setDt b).event = s.event := rfl
@[simp] theorem State.setDt_info (b : Byte) : (s.setDt b).info = s.info := rfl
@[simp] theorem State.setDt_keyFeed (b : Byte) : (s.setDt b).keyFeed = s.keyFeed := rfl
@[simp] theorem State.setDt_rndFeed (b : Byte) : (s.setDt b).rndFeed = s.rndFeed := rfl
@[simp] theorem State.setDt_draws (b : Byte) : (s.setDt b).draws = s.draws := rfl
@[simp] theorem State.setDt_cfg (b : Byte) : (s.setDt b).cfg = s.cfg := rfl
@[simp] theorem State.setDt_reg (b : Byte) (y : Nibble) : (s.setDt b).reg y = s.reg y := rfl

@[simp] theorem State.setSt_v (b : Byte) : (s.setSt b).v = s.v := rfl
@[simp] theorem State.setSt_i (b : Byte) : (s.setSt b).i = s.i := rfl
@[simp] theorem State.setSt_pc (b : Byte) : (s.setSt b).pc = s.pc := rfl
@[simp] theorem State.setSt_stack (b : Byte) : (s.setSt b).stack = s.stack := rfl
@[simp] theorem State.setSt_dt (b : Byte) : (s.setSt b).dt = s.dt := rfl
@[simp] theorem State.setSt_st (b : Byte) : (s.setSt b).st = b := rfl
@[simp] theorem State.setSt_mem (b : Byte) : (s.setSt b).mem = s.mem := rfl
@[simp] theorem State.setSt_fb (b : Byte) : (s.setSt b).fb = s.fb := rfl
@[simp] theorem State.setSt_key (b : Byte) : (s.setSt b).key = s.key := rfl
@[simp] theorem State.setSt_progEnd (b : Byte) : (s.setSt b).progEnd = s.progEnd := rfl
@[simp] theorem State.setSt_run (b : Byte) : (s.setSt b).run = s.run := rfl
@[simp] theorem State.setSt_event (b : Byte) : (s.setSt b).event = s.event := rfl
@[simp] theorem State.setSt_info (b : Byte) : (s.setSt b).info = s.info := rfl
@[simp] theorem State.setSt_keyFeed (b : Byte) : (s.setSt b).keyFeed = s.keyFeed := rfl
@[simp] theorem State.setSt_rndFeed (b : Byte) : (s.setSt b).rndFeed = s.rndFeed := rfl
@[simp] theorem State.setSt_draws (b : Byte) : (s.setSt b).draws = s.draws := rfl
@[simp] theorem State.setSt_cfg (b : Byte) : (s.setSt b).cfg = s.cfg := rfl
@[simp] theorem State.setSt_reg (b : Byte) (y : Nibble) : (s.setSt b).reg y = s.reg y := rfl

@[simp] theorem State.setFb_v (f : Frame) : (s.setFb f).v = s.v := rfl
@[simp] theorem State.setFb_i (f : Frame) : (s.setFb f).i = s.i := rfl
@[simp] theorem State.setFb_pc (f : Frame) : (s.setFb f).pc = s.pc := rfl
@[simp] theorem State.setFb_stack (f : Frame) : (s.setFb f).stack = s.stack := rfl
@[simp] theorem State.setFb_dt (f : Frame) : (s.setFb f).dt = s.dt := rfl
@[simp] theorem State.setFb_st (f : Frame) : (s.setFb f).st = s.st := rfl
@[simp] theorem State.setFb_mem (f : Frame) : (s.setFb f).mem = s.mem := rfl
@[simp] theorem State.setFb_fb (f : Frame) : (s.setFb f).fb = f := rfl
@[simp] theorem State.setFb_key (f : Frame) : (s.setFb f).key = s.key := rfl
@[simp] theorem State.setFb_progEnd (f : Frame) : (s.setFb f).progEnd = s.progEnd := rfl
@[simp] theorem State.setFb_run (f : Frame) : (s.setFb f).run = s.run := rfl
@[simp] theorem State.setFb_event (f : Frame) : (s.setFb f).event = s.event := rfl
@[simp] theorem State.setFb_info (f : Frame) : (s.setFb f).info = s.info := rfl
@[simp] theorem State.setFb_keyFeed (f : Frame) : (s.setFb f).keyFeed = s.keyFeed := rfl
@[simp] theorem State.setFb_rndFeed (f : Frame) : (s.setFb f).rndFeed = s.rndFeed := rfl
@[simp] theorem State.setFb_draws (f : Frame) : (s.setFb f).draws = s.draws := rfl
@[simp] theorem State.setFb_cfg (f : Frame) : (s.setFb f).cfg = s.cfg := rfl
@[simp] theorem State.setFb_reg (f : Frame) (y : Nibble) : (s.setFb f).reg y = s.reg y := rfl

@[simp] theorem State.setKeys_v (k : Word) (feed : List Word) : (s.setKeys k feed).v = s.v := rfl
@[simp] theorem State.setKeys_i (k : Word) (feed : List Word) : (s.setKeys k feed).i = s.i := rfl
@[simp] theorem State.setKeys_pc (k : Word) (feed : List Word) : (s.setKeys k feed).pc = s.pc := rfl
@[simp] theorem State.setKeys_stack (k : Word) (feed : List Word) : (s.setKeys k feed).stack = s.stack := rfl
@[simp] theorem State.setKeys_dt (k : Word) (feed : List Word) : (s.setKeys k feed).dt = s.dt := rfl
@[simp] theorem State.setKeys_st (k : Word) (feed : List Word) : (s.setKeys k feed).st = s.st := rfl
@[simp] theorem State.setKeys_mem (k : Word) (feed : List Word) : (s.setKeys k feed).mem = s.mem := rfl
@[simp] theorem State.setKeys_fb (k : Word) (feed : List Word) : (s.setKeys k feed).fb = s.fb := rfl
@[simp] theorem State.setKeys_key (k : Word) (feed : List Word) : (s.setKeys k feed).key = k := rfl
@[simp] theorem State.setKeys_progEnd (k : Word) (feed : List Word) : (s.setKeys k feed).progEnd = s.progEnd := rfl
@[simp] theorem State.setKeys_run (k : Word) (feed : List Word) : (s.setKeys k feed).run = s.run := rfl
@[simp] theorem State.setKeys_event (k : Word) (feed : List Word) : (s.setKeys k feed).event = s.event := rfl
@[simp] theorem State.setKeys_info (k : Word) (feed : List Word) : (s.setKeys k feed).info = s.info := rfl
@[simp] theorem State.setKeys_keyFeed (k : Word) (feed : List Word) : (s.setKeys k feed).keyFeed = feed := rfl
@[simp] theorem State.setKeys_rndFeed (k : Word) (feed : List Word) : (s.setKeys k feed).rndFeed = s.rndFeed := rfl
@[simp] theorem State.setKeys_draws (k : Word) (feed : List Word) : (s.setKeys k feed).draws = s.draws := rfl
@[simp] theorem State.setKeys_cfg (k : Word) (feed : List Word) : (s.setKeys k feed).cfg = s.cfg := rfl
@[simp] theorem State.setKeys_reg (k : Word) (feed : List Word) (y : Nibble) : (s.setKeys k feed).reg y = s.reg y := rfl

@[simp] theorem State.nextRnd_v : s.nextRnd.v = s.v := rfl
@[simp] theorem State.nextRnd_i : s.nextRnd.i = s.i := rfl
@[simp] theorem State.nextRnd_pc : s.nextRnd.pc = s.pc := rfl
@[simp] theorem State.nextRnd_stack : s.nextRnd.stack = s.stack := rfl
@[simp] theorem State.nextRnd_dt : s.nextRnd.dt = s.dt := rfl
@[simp] theorem State.nextRnd_st : s.nextRnd.st = s.st := rfl
@[simp] theorem State.nextRnd_mem : s.nextRnd.mem = s.mem := rfl
@[simp] theorem State.nextRnd_fb : s.nextRnd.fb = s.fb := rfl
@[simp] theorem State.nextRnd_key : s.nextRnd.key = s.key := rfl
@[simp] theorem State.nextRnd_progEnd : s.nextRnd.progEnd = s.progEnd := rfl
@[simp] theorem State.nextRnd_run : s.nextRnd.run = s.run := rfl
@[simp] theorem State.nextRnd_event : s.nextRnd.event = s.event := rfl
@[simp] theorem State.nextRnd_info : s.nextRnd.info = s.info := rfl
@[simp] theorem State.nextRnd_keyFeed : s.nextRnd.keyFeed = s.keyFeed := rfl
@[simp] theorem State.nextRnd_rndFeed : s.nextRnd.rndFeed = s.rndFeed.tail := rfl
@[simp] theorem State.nextRnd_draws : s.nextRnd.draws = s.draws + 1 := rfl
@[simp] theorem State.nextRnd_cfg : s.nextRnd.cfg = s.cfg := rfl
@[simp] theorem State.nextRnd_reg (y : Nibble) : s.nextRnd.reg y = s.reg y := rfl

@[simp] theorem State.setEvent_v (e : Event) : (s.setEvent e).v = s.v := rfl
@[simp] theorem State.setEvent_i (e : Event) : (s.setEvent e).i = s.i := rfl
@[simp] theorem State.setEvent_pc (e : Event) : (s.setEvent e).pc = s.pc := rfl
@[simp] theorem State.setEvent_stack (e : Event) : (s.setEvent e).stack = s.stack := rfl
@[simp] theorem State.setEvent_dt (e : Event) : (s.setEvent e).dt = s.dt := rfl
@[simp] theorem State.setEvent_st (e : Event) : (s.setEvent e).st = s.st := rfl
@[simp] theorem State.setEvent_mem (e : Event) : (s.setEvent e).mem = s.mem := rfl
@[simp] theorem State.setEvent_fb (e : Event) : (s.setEvent e).fb = s.fb := rfl
@[simp] theorem State.setEvent_key (e : Event) : (s.setEvent e).key = s.key := rfl
@[simp] theorem State.setEvent_progEnd (e : Event) : (s.setEvent e).progEnd = s.progEnd := rfl
@[simp] theorem State.setEvent_run (e : Event) : (s.setEvent e).run = s.run := rfl
@[simp] theorem State.setEvent_event (e : Event) : (s.setEvent e).event = e := rfl
@[simp] theorem State.setEvent_info (e : Event) : (s.setEvent e).info = s.info := rfl
@[simp] theorem State.setEvent_keyFeed (e : Event) : (s.setEvent e).keyFeed = s.keyFeed := rfl
@[simp] theorem State.setEvent_rndFeed (e : Event) : (s.setEvent e).rndFeed = s.rndFeed := rfl
@[simp] theorem State.setEvent_draws (e : Event) : (s.setEvent e).draws = s.draws := rfl
@[simp] theorem State.setEvent_cfg (e : Event) : (s.setEvent e).cfg = s.cfg := rfl
@[simp] theorem State.setEvent_reg (e : Event) (y : Nibble) : (s.setEvent e).reg y = s.reg y := rfl

@[simp] theorem State.setInfo_v (d : Option RangeInfo) : (s.setInfo d).v = s.v := rfl
@[simp] theorem State.setInfo_i (d : Option RangeInfo) : (s.setInfo d).i = s.i := rfl
@[simp] theorem State.setInfo_pc (d : Option RangeInfo) : (s.setInfo d).pc = s.pc := rfl
@[simp] theorem State.setInfo_stack (d : Option RangeInfo) : (s.setInfo d).stack = s.stack := rfl
@[simp] theorem State.setInfo_dt (d : Option RangeInfo) : (s.setInfo d).dt = s.dt := rfl
@[simp] theorem State.setInfo_st (d : Option RangeInfo) : (s.setInfo d).st = s.st := rfl
@[simp] theorem State.setInfo_mem (d : Option RangeInfo) : (s.setInfo d).mem = s.mem := rfl
@[simp] theorem State.setInfo_fb (d : Option RangeInfo) : (s.setInfo d).fb = s.fb := rfl
@[simp] theorem State.setInfo_key (d : Option RangeInfo) : (s.setInfo d).key = s.key := rfl
@[simp] theorem State.setInfo_progEnd (d : Option RangeInfo) : (s.setInfo d).progEnd = s.progEnd := rfl
@[simp] theorem State.setInfo_run (d : Option RangeInfo) : (s.setInfo d).run = s.run := rfl
@[simp] theorem State.setInfo_event (d : Option RangeInfo) : (s.setInfo d).event = s.event := rfl
@[simp] theorem State.setInfo_info (d : Option RangeInfo) : (s.setInfo d).info = d := rfl
@[simp] theorem State.setInfo_keyFeed (d : Option RangeInfo) : (s.setInfo d).keyFeed = s.keyFeed := rfl
@[simp] theorem State.setInfo_rndFeed (d : Option RangeInfo) : (s.setInfo d).rndFeed = s.rndFeed := rfl
@[simp] theorem State.setInfo_draws (d : Option RangeInfo) : (s.setInfo d).draws = s.draws := rfl
@[simp] theorem State.setInfo_cfg (d : Option RangeInfo) : (s.setInfo d).cfg = s.cfg := rfl
@[simp] theorem State.setInfo_reg (d : Option RangeInfo) (y : Nibble) : (s.setInfo d).reg y = s.reg y := rfl

@[simp] theorem State.stop_v (r : Run) : (s.stop r).v = s.v := rfl
@[simp] theorem State.stop_i (r : Run) : (s.stop r).i = s.i := rfl
@[simp] theorem State.stop_pc (r : Run) : (s.stop r).pc = s.pc := rfl
@[simp] theorem State.stop_stack (r : Run) : (s.stop r).stack = s.stack := rfl
@[simp] theorem State.stop_dt (r : Run) : (s.stop r).dt = s.dt := rfl
@[simp] theorem State.stop_st (r : Run) : (s.stop r).st = s.st := rfl
@[simp] theorem State.stop_mem (r : Run) : (s.stop r).mem = s.mem := rfl
@[simp] theorem State.stop_fb (r : Run) : (s.stop r).fb = s.fb := rfl
@[simp] theorem State.stop_key (r : Run) : (s.stop r).key = s.key := rfl
@[simp] theorem State.stop_progEnd (r : Run) : (s.stop r).progEnd = s.progEnd := rfl
@[simp] theorem State.stop_run (r : Run) : (s.stop r).run = r := rfl
@[simp] theorem State.stop_event (r : Run) : (s.stop r).event = s.event := rfl
@[simp] theorem State.stop_info (r : Run) : (s.stop r).info = s.info := rfl
@[simp] theorem State.stop_keyFeed (r : Run) : (s.stop r).keyFeed = s.keyFeed := rfl
@[simp] theorem State.stop_rndFeed (r : Run) : (s.stop r).rndFeed = s.rndFeed := rfl
@[simp] theorem State.stop_draws (r : Run) : (s.stop r).draws = s.draws := rfl
@[simp] theorem State.stop_cfg (r : Run) : (s.stop r).cfg = s.cfg := rfl
@[simp] theorem State.stop_reg (r : Run) (y : Nibble) : (s.stop r).reg y = s.reg y := rfl

@[simp] theorem State.setProgEnd_v (a : Nat) : (s.setProgEnd a).v = s.v := rfl
@[simp] theorem State.setProgEnd_i (a : Nat) : (s.setProgEnd a).i = s.i := rfl
@[simp] theorem State.setProgEnd_pc (a : Nat) : (s.setProgEnd a).pc = s.pc := rfl
@[simp] theorem State.setProgEnd_stack (a : Nat) : (s.setProgEnd a).stack = s.stack := rfl
@[simp] theorem State.setProgEnd_dt (a : Nat) : (s.setProgEnd a).dt = s.dt := rfl
@[simp] theorem State.setProgEnd_st (a : Nat) : (s.setProgEnd a).st = s.st := rfl
@[simp] theorem State.setProgEnd_mem (a : Nat) : (s.setProgEnd a).mem = s.mem := rfl
@[simp] theorem State.setProgEnd_fb (a : Nat) : (s.setProgEnd a).fb = s.fb := rfl
@[simp] theorem State.setProgEnd_key (a : Nat) : (s.setProgEnd a).key = s.key := rfl
@[simp] theorem State.setProgEnd_progEnd (a : Nat) : (s.setProgEnd a).progEnd = a := rfl
@[simp] theorem State.setProgEnd_run (a : Nat) : (s.setProgEnd a).run = s.run := rfl
@[simp] theorem State.setProgEnd_event (a : Nat) : (s.setProgEnd a).event = s.event := rfl
@[simp] theorem State.setProgEnd_info (a : Nat) : (s.setProgEnd a).info = s.info := rfl
@[simp] theorem State.setProgEnd_keyFeed (a : Nat) : (s.setProgEnd a).keyFeed = s.keyFeed := rfl
@[simp] theorem State.setProgEnd_rndFeed (a : Nat) : (s.setProgEnd a).rndFeed = s.rndFeed := rfl
@[simp] theorem State.setProgEnd_draws (a : Nat) : (s.setProgEnd a).draws = s.draws := rfl
@[simp] theorem State.setProgEnd_cfg (a : Nat) : (s.setProgEnd a).cfg = s.cfg := rfl
@[simp] theorem State.setProgEnd_reg (a : Nat) (y : Nibble) : (s.setProgEnd a).reg y = s.reg y := rfl

@[simp] theorem State.store_v (a : Nat) (bytes : List Byte) : (s.store a bytes).v = s.v := rfl
@[simp] theorem State.store_i (a : Nat) (bytes : List Byte) : (s.store a bytes).i = s.i := rfl
@[simp] theorem State.store_pc (a : Nat) (bytes : List Byte) : (s.store a bytes).pc = s.pc := rfl
@[simp] theorem State.store_stack (a : Nat) (bytes : List Byte) : (s.store a bytes).stack = s.stack := rfl
@[simp] theorem State.store_dt (a : Nat) (bytes : List Byte) : (s.store a bytes).dt = s.dt := rfl
@[simp] theorem State.store_st (a : Nat) (bytes : List Byte) : (s.store a bytes).st = s.st := rfl
@[simp] theorem State.store_mem (a : Nat) (bytes : List Byte) : (s.store a bytes).mem = s.mem.writeList a bytes := rfl
@[simp] theorem State.store_fb (a : Nat) (bytes : List Byte) : (s.store a bytes).fb = s.fb := rfl
@[simp] theorem State.store_key (a : Nat) (bytes : List Byte) : (s.store a bytes).key = s.key := rfl
@[simp] theorem State.store_progEnd (a : Nat) (bytes : List Byte) : (s.store a bytes).progEnd = s.progEnd := rfl
@[simp] theorem State.store_run (a : Nat) (bytes : List Byte) : (s.store a bytes).run = s.run := rfl
@[simp] theorem State.store_event (a : Nat) (bytes : List Byte) : (s.store a bytes).event = s.event := rfl
@[simp] theorem State.store_info (a : Nat) (bytes : List Byte) : (s.store a bytes).info = s.info := rfl
@[simp] theorem State.store_keyFeed (a : Nat) (bytes : List Byte) : (s.store a bytes).keyFeed = s.keyFeed := rfl
@[simp] theorem State.store_rndFeed (a : Nat) (bytes : List Byte) : (s.store a bytes).rndFeed = s.rndFeed := rfl
@[simp] theorem State.store_draws (a : Nat) (bytes : List Byte) : (s.store a bytes).draws = s.draws := rfl
@[simp] theorem State.store_cfg (a : Nat) (bytes : List Byte) : (s.store a bytes).cfg = s.cfg := rfl
@[simp] theorem State.store_reg (a : Nat) (bytes : List Byte) (y : Nibble) : (s.store a bytes).reg y = s.reg y := rfl

@[simp] theorem State.push_v (a : Word) : (s.push a).v = s.v := rfl
@[simp] theorem State.push_i (a : Word) : (s.push a).i = s.i := rfl
@[simp] theorem State.push_pc (a : Word) : (s.push a).pc = s.pc := rfl
@[simp] theorem State.push_stack (a : Word) : (s.push a).stack = a :: s.stack := rfl
@[simp] theorem State.push_dt (a : Word) : (s.push a).dt = s.dt := rfl
@[simp] theorem State.push_st (a : Word) : (s.push a).st = s.st := rfl
@[simp] theorem State.push_mem (a : Word) : (s.push a).mem = s.mem := rfl
@[simp] theorem State.push_fb (a : Word) : (s.push a).fb = s.fb := rfl
@[simp] theorem State.push_key (a : Word) : (s.push a).key = s.key := rfl
@[simp] theorem State.push_progEnd (a : Word) : (s.push a).progEnd = s.progEnd := rfl
@[simp] theorem State.push_run (a : Word) : (s.push a).run = s.run := rfl
@[simp] theorem State.push_event (a : Word) : (s.push a).event = s.event := rfl
@[simp] theorem State.push_info (a : Word) : (s.push a).info = s.info := rfl
@[simp] theorem State.push_keyFeed (a : Word) : (s.push a).keyFeed = s.keyFeed := rfl
@[simp] theorem State.push_rndFeed (a : Word) : (s.push a).rndFeed = s.rndFeed := rfl
@[simp] theorem State.push_draws (a : Word) : (s.push a).draws = s.draws := rfl
@[simp] theorem State.push_cfg (a : Word) : (s.push a).cfg = s.cfg := rfl
@[simp] theorem State.push_reg (a : Word) (y : Nibble) : (s.push a).reg y = s.reg y := rfl

@[simp] theorem State.tickTimers_v : s.tickTimers.v = s.v := rfl
@[simp] theorem State.tickTimers_i : s.tickTimers.i = s.i := rfl
@[simp] theorem State.tickTimers_pc : s.tickTimers.pc = s.pc := rfl
@[simp] theorem State.tickTimers_stack : s.tickTimers.stack = s.stack := rfl
@[simp] theorem State.tickTimers_dt : s.tickTimers.dt = tickDown s.dt := rfl
@[simp] theorem State.tickTimers_st : s.tickTimers.st = tickDown s.st := rfl
@[simp] theorem State.tickTimers_mem : s.tickTimers.mem = s.mem := rfl
@[simp] theorem State.tickTimers_fb : s.tickTimers.fb = s.fb := rfl
@[simp] theorem State.tickTimers_key : s.tickTimers.key = s.key := rfl
@[simp] theorem State.tickTimers_progEnd : s.tickTimers.progEnd = s.progEnd := rfl
@[simp] theorem State.tickTimers_run : s.tickTimers.run = s.run := rfl
@[simp] theorem State.tickTimers_event : s.tickTimers.event = s.event := rfl
@[simp] theorem State.tickTimers_info : s.tickTimers.info = s.info := rfl
@[simp] theorem State.tickTimers_keyFeed : s.tickTimers.keyFeed = s.keyFeed := rfl
@[simp] theorem State.tickTimers_rndFeed : s.tickTimers.rndFeed = s.rndFeed := rfl
@[simp] theorem State.tickTimers_draws : s.tickTimers.draws = s.draws := rfl
@[simp] theorem State.tickTimers_cfg : s.tickTimers.cfg = s.cfg := rfl
@[simp] theorem State.tickTimers_reg (y : Nibble) : s.tickTimers.reg y = s.reg y := rfl

@[simp] theorem State.raiseRange_v (d : RangeInfo) : (s.raiseRange d).v = s.v := rfl
@[simp] theorem State.raiseRange_i (d : RangeInfo) : (s.raiseRange d).i = s.i := rfl
@[simp] theorem State.raiseRange_pc (d : RangeInfo) : (s.raiseRange d).pc = s.pc := rfl
@[simp] theorem State.raiseRange_stack (d : RangeInfo) : (s.raiseRange d).stack = s.stack := rfl
@[simp] theorem State.raiseRange_dt (d : RangeInfo) : (s.raiseRange d).dt = s.dt := rfl
@[simp] theorem State.raiseRange_st (d : RangeInfo) : (s.raiseRange d).st = s.st := rfl
@[simp] theorem State.raiseRange_mem (d : RangeInfo) : (s.raiseRange d).mem = s.mem := rfl
@[simp] theorem State.raiseRange_fb (d : RangeInfo) : (s.raiseRange d).fb = s.fb := rfl
@[simp] theorem State.raiseRange_key (d : RangeInfo) : (s.raiseRange d).key = s.key := rfl
@[simp] theorem State.raiseRange_progEnd (d : RangeInfo) : (s.raiseRange d).progEnd = s.progEnd := rfl
@[simp] theorem State.raiseRange_run (d : RangeInfo) : (s.raiseRange d).run = .fatalRange := rfl
@[simp] theorem State.raiseRange_event (d : RangeInfo) : (s.raiseRange d).event = s.event := rfl
@[simp] theorem State.raiseRange_info (d : RangeInfo) : (s.raiseRange d).info = some d := rfl
@[simp] theorem State.raiseRange_keyFeed (d : RangeInfo) : (s.raiseRange d).keyFeed = s.keyFeed := rfl
@[simp] theorem State.raiseRange_rndFeed (d : RangeInfo) : (s.raiseRange d).rndFeed = s.rndFeed := rfl
@[simp] theorem State.raiseRange_draws (d : RangeInfo) : (s.raiseRange d).draws = s.draws := rfl
@[simp] theorem State.raiseRange_cfg (d : RangeInfo) : (s.raiseRange d).cfg = s.cfg := rfl
@[simp] theorem State.raiseRange_reg (d : RangeInfo) (y : Nibble) : (s.raiseRange d).reg y = s.reg y := rfl

@[simp] theorem State.setRegThenFlag_i (x : Nibble) (b f : Byte) : (s.setRegThenFlag x b f).i = s.i := rfl
@[simp] theorem State.setRegThenFlag_pc (x : Nibble) (b f : Byte) : (s.setRegThenFlag x b f).pc = s.pc := rfl
@[simp] theorem State.setRegThenFlag_stack (x : Nibble) (b f : Byte) : (s.setRegThenFlag x b f).stack = s.stack := rfl
@[simp] theorem State.setRegThenFlag_dt (x : Nibble) (b f : Byte) : (s.setRegThenFlag x b f).dt = s.dt := rfl
@[simp] theorem State.setRegThenFlag_st (x : Nibble) (b f : Byte) : (s.setRegThenFlag x b f).st = s.st := rfl
@[simp] theorem State.setRegThenFlag_mem (x : Nibble) (b f : Byte) : (s.setRegThenFlag x b f).mem = s.mem := rfl
@[simp] theorem State.setRegThenFlag_fb (x : Nibble) (b f : Byte) : (s.setRegThenFlag x b f).fb = s.fb := rfl
@[simp] theorem State.setRegThenFlag_key (x : Nibble) (b f : Byte) : (s.setRegThenFlag x b f).key = s.key := rfl
@[simp] theorem State.setRegThenFlag_progEnd (x : Nibble) (b f : Byte) : (s.setRegThenFlag x b f).progEnd = s.progEnd := rfl
@[simp] theorem State.setRegThenFlag_run (x : Nibble) (b f : Byte) : (s.setRegThenFlag x b f).run = s.run := rfl
@[simp] theorem State.setRegThenFlag_event (x : Nibble) (b f : Byte) : (s.setRegThenFlag x b f).event = s.event := rfl
@[simp] theorem State.setRegThenFlag_info (x : Nibble) (b f : Byte) : (s.setRegThenFlag x b f).info = s.info := rfl
@[simp] theorem State.setRegThenFlag_keyFeed (x : Nibble) (b f : Byte) : (s.setRegThenFlag x b f).keyFeed = s.keyFeed := rfl
@[simp] theorem State.setRegThenFlag_rndFeed (x : Nibble) (b f : Byte) : (s.setRegThenFlag x b f).rndFeed = s.rndFeed := rfl
@[simp] theorem State.setRegThenFlag_draws (x : Nibble) (b f : Byte) : (s.setRegThenFlag x b f).draws = s.draws := rfl
@[simp] theorem State.setRegThenFlag_cfg (x : Nibble) (b f : Byte) : (s.setRegThenFlag x b f).cfg = s.cfg := rfl

@[simp] theorem State.clearOutputs_v : s.clearOutputs.v = s.v := rfl
@[simp] theorem State.clearOutputs_i : s.clearOutputs.i = s.i := rfl
@[simp] theorem State.clearOutputs_pc : s.clearOutputs.pc = s.pc := rfl
@[simp] theorem State.clearOutputs_stack : s.clearOutputs.stack = s.stack := rfl
@[simp] theorem State.clearOutputs_dt : s.clearOutputs.dt = s.dt := rfl
@[simp] theorem State.clearOutputs_st : s.clearOutputs.st = s.st := rfl
@[simp] theorem State.clearOutputs_mem : s.clearOutputs.mem = s.mem := rfl
@[simp] theorem State.clearOutputs_fb : s.clearOutputs.fb = s.fb := rfl
@[simp] theorem State.clearOutputs_key : s.clearOutputs.key = s.key := rfl
@[simp] theorem State.clearOutputs_progEnd : s.clearOutputs.progEnd = s.progEnd := rfl
@[simp] theorem State.clearOutputs_run : s.clearOutputs.run = s.run := rfl
@[simp] theorem State.clearOutputs_event : s.clearOutputs.event = .none := rfl
@[simp] theorem State.clearOutputs_info : s.clearOutputs.info = none := rfl
@[simp] theorem State.clearOutputs_keyFeed : s.clearOutputs.keyFeed = s.keyFeed := rfl
@[simp] theorem State.clearOutputs_rndFeed : s.clearOutputs.rndFeed = s.rndFeed := rfl
@[simp] theorem State.clearOutputs_draws : s.clearOutputs.draws = s.draws := rfl
@[simp] theorem State.clearOutputs_cfg : s.clearOutputs.cfg = s.cfg := rfl
@[simp] theorem State.clearOutputs_reg (y : Nibble) : s.clearOutputs.reg y = s.reg y := rfl

end Sys2Proof.Machine
end

