-- ==== Sys2Proof/Laws/Ops.lean ====
section
/-! SUPPORT. One lemma per shared operation over registers, memory blocks, timers, keys and the load, saying what it does. -/

namespace Sys2Proof.Machine

/-! ### Registers -/

/-- 10_state R21: a write changes its register and no other. -/
@[simp] theorem State.reg_setReg (s : State) (x y : Nibble) (b : Byte) :
    (s.setReg x b).reg y = if y = x then b else s.reg y := by
  simp [State.setReg, State.reg, Vector.getElem_set, ← BitVec.toNat_inj, eq_comm]

/-- 42_alu R143: VF holds the flag, the destination the result unless it is VF. -/
@[simp] theorem State.reg_setRegThenFlag (s : State) (x y : Nibble) (b f : Byte) :
    (s.setRegThenFlag x b f).reg y = if y = 0xF#4 then f else if y = x then b else s.reg y := by
  simp [State.setRegThenFlag]

/-- A block written to the registers from V`x` on (45_index_memory R176). -/
theorem State.reg_setRegs (s : State) (x : Nat) (bytes : List Byte) (hx : x + bytes.length ≤ 16) (y : Nibble) :
    (s.setRegs x bytes).reg y =
      if x ≤ y.toNat ∧ y.toNat < x + bytes.length then bytes.getD (y.toNat - x) 0x00#8 else s.reg y := by
  induction bytes generalizing s x with
  | nil => simp [State.setRegs]
  | cons b bytes ih =>
    rw [List.length_cons] at hx
    rw [State.setRegs, if_pos (by omega), ih _ _ (by omega), State.reg_setReg, List.length_cons]
    by_cases h : y.toNat = x
    · have hy : y = BitVec.ofNat 4 x := BitVec.eq_of_toNat_eq (by simp; omega)
      rw [if_neg (by omega), if_pos hy, if_pos (by omega), h]; simp
    · have hy : y ≠ BitVec.ofNat 4 x := fun e => h (by rw [e]; simp; omega)
      by_cases h2 : x + 1 ≤ y.toNat ∧ y.toNat < x + 1 + bytes.length
      · have e : y.toNat - x = (y.toNat - (x + 1)) + 1 := by omega
        rw [if_pos h2, if_pos (by omega), e]; rfl
      · rw [if_neg h2, if_neg hy, if_neg (by omega)]

/-- A block written to the registers changes nothing but registers. -/
theorem State.setRegs_eq (s : State) (x : Nat) (bytes : List Byte) :
    s.setRegs x bytes = { s with v := (s.setRegs x bytes).v } := by
  induction bytes generalizing s x with
  | nil => rfl
  | cons b bytes ih =>
    rw [State.setRegs]
    split
    · exact ih (s.setReg (BitVec.ofNat 4 x) b) (x + 1)
    · rfl

/-- A skip moves PC by 2 or not at all (41_control_flow R118). -/
theorem State.skipIf_eq (s : State) (taken : Bool) :
    s.skipIf taken = s.setPc (if taken then s.pc + 2#16 else s.pc) := by
  cases taken <;> rfl

/-! ### Blocks of memory -/

/-- A store changes the bytes of its block and no other. -/
theorem State.read_store (s : State) (a b : Nat) (bytes : List Byte) :
    (s.store a bytes).mem.read b =
      if a ≤ b ∧ b < a + bytes.length then bytes.getD (b - a) 0x00#8 else s.mem.read b :=
  Memory.read_writeList ..

@[simp] theorem State.length_bytesAt (s : State) (a len : Nat) : (s.bytesAt a len).length = len := by
  simp [State.bytesAt]

theorem State.getD_bytesAt (s : State) (a len k : Nat) (h : k < len) :
    (s.bytesAt a len).getD k 0x00#8 = s.mem.read (a + k) := by
  simp [State.bytesAt, h]

@[simp] theorem State.length_firstRegs (s : State) (count : Nat) : (s.firstRegs count).length = count := by
  simp [State.firstRegs]

theorem State.getD_firstRegs (s : State) (count k : Nat) (h : k < count) :
    (s.firstRegs count).getD k 0x00#8 = s.reg (BitVec.ofNat 4 k) := by
  simp [State.firstRegs, h]

@[simp] theorem length_bcdDigits (b : Byte) : (bcdDigits b).length = 3 := rfl

/-- A block in range: the handler's state (20_memory R53). -/
theorem State.withBlock_ok (s : State) (len : Nat) (done : State) (h : len = 0 ∨ s.i.toNat + (len - 1) ≤ 4095) :
    s.withBlock len done = .next done := by
  rw [State.withBlock, if_pos (by simpa [rangeOk] using h)]

/-- A block not in range: FATAL_RANGE, nothing else (60_exceptions R184, R190). -/
theorem State.withBlock_bad (s : State) (len : Nat) (done : State) (h : ¬(len = 0 ∨ s.i.toNat + (len - 1) ≤ 4095)) :
    s.withBlock len done = .next (s.raiseRange (.address (max s.i.toNat 4096))) := by
  rw [State.withBlock, if_neg (by simpa [rangeOk] using h)]; rfl

/-! ### Timers, flags and keys -/

/-- 40_cycle R98: one less, and 0 stays 0. -/
theorem toNat_tickDown (t : Byte) : (tickDown t).toNat = t.toNat - 1 := by
  rw [tickDown]
  split
  · rename_i h; simp [h]
  · rename_i h
    have h0 : t.toNat ≠ 0 := fun e => h (BitVec.eq_of_toNat_eq (by simpa using e))
    have := t.isLt
    rw [BitVec.toNat_sub]; simp; omega

/-- The key index as 44_keypad_timers R166 gives it. -/
theorem State.keyIndex_eq (s : State) (x : Nibble) :
    s.keyIndex x =
      if (s.reg x).toNat > 15 ∧ s.cfg.keyIndexPolicy = .fault then .error (.keyIndex (s.reg x))
      else .ok ((s.reg x).toNat % 16) := by
  rw [State.keyIndex]
  split
  · rename_i h
    cases hp : s.cfg.keyIndexPolicy <;> simp [h]
  · rename_i h
    rw [if_neg (fun hc => h hc.1)]
    congr 1; omega

/-- 44_keypad_timers R162: the least pressed key. -/
theorem State.firstKey_eq_some (s : State) (k : Nat) :
    s.firstKey = some k ↔ k < 16 ∧ s.keyDown k = true ∧ ∀ j, j < k → s.keyDown j = false := by
  rw [State.firstKey, List.find?_range_eq_some]
  simp [and_left_comm]

/-- 44_keypad_timers R162: no key is pressed. -/
theorem State.firstKey_eq_none (s : State) : s.firstKey = none ↔ s.key = 0#16 := by
  simp only [State.firstKey, List.find?_eq_none, List.mem_range, State.keyDown, Bool.not_eq_true]
  refine ⟨fun h => BitVec.eq_of_getLsbD_eq fun j hj => by simpa using h j hj, fun h j _ => by simp [h]⟩

/-! ### Inputs -/

/-- The keypad sample at the start of a cycle changes the two keypad fields only. -/
theorem State.sampleKeys_eq (s : State) :
    s.sampleKeys = s.setKeys (s.keyFeed.headD s.key) s.keyFeed.tail := by
  obtain ⟨v, i, pc, stack, dt, st, mem, fb, key, progEnd, run, event, info, keyFeed, rndFeed, draws, cfg⟩ := s
  cases keyFeed <;> rfl

/-- The start of a cycle: outputs cleared, keypad sampled. -/
theorem State.beginCycle_eq (s : State) :
    s.beginCycle = s.clearOutputs.setKeys (s.keyFeed.headD s.key) s.keyFeed.tail :=
  State.sampleKeys_eq s.clearOutputs

end Sys2Proof.Machine
end

