-- ==== Sys2Proof/Laws/Display.lean ====
section
/-! SUPPORT. What the sprite-draw XOR engine does, pixel by pixel: one draw flips exactly the pixels a set sprite bit covers and
reports whether one of them was 1 (43_display R152). -/

namespace Sys2Proof.Machine

theorem Frame.pixel_of_lt (f : Frame) (x y : Nat) (hy : y < 32) : f.pixel x y = (f[y]).getLsbD x := by
  simp [Frame.pixel, hy]

/-- A pixel outside the grid is 0. -/
theorem Frame.pixel_outside (f : Frame) (x y : Nat) (h : ¬(x < 64 ∧ y < 32)) : f.pixel x y = false := by
  by_cases hy : y < 32
  · rw [Frame.pixel_of_lt f x y hy]; exact BitVec.getLsbD_of_ge _ _ (by omega)
  · simp [Frame.pixel, hy]

@[simp] theorem Frame.pixel_clear (x y : Nat) : Frame.clear.pixel x y = false := by
  by_cases hy : y < 32
  · rw [Frame.pixel_of_lt _ _ _ hy]; simp [Frame.clear]
  · exact Frame.pixel_outside _ _ _ (by omega)

/-- `flip` flips its pixel and no other. -/
theorem Frame.pixel_flip (f : Frame) (x y px py : Nat) (hx : x < 64) (hy : y < 32) :
    (f.flip x y).pixel px py = (f.pixel px py ^^ (decide (px = x ∧ py = y))) := by
  by_cases hp : px < 64 ∧ py < 32
  · rw [Frame.pixel_of_lt _ _ _ hp.2, Frame.pixel_of_lt _ _ _ hp.2]
    simp only [Frame.flip, Vector.getElem_setIfInBounds]
    by_cases h : y = py
    · subst h
      by_cases hxx : px = x
      · subst hxx; simp [hp.2, hp.1]
      · have h0 : (!decide (px < x) && decide (px - x = 0)) = false := by simp; omega
        simp [hp.2, hp.1, hxx, h0]
    · simp [h, Ne.symm h]
  · rw [Frame.pixel_outside _ _ _ hp, Frame.pixel_outside _ _ _ hp, decide_eq_false (by omega)]; rfl

/-- Framebuffers that agree on every pixel are equal. -/
theorem Frame.ext_pixel {f g : Frame} (h : ∀ x y, x < 64 → y < 32 → f.pixel x y = g.pixel x y) : f = g := by
  refine Vector.ext fun y hy => BitVec.eq_of_getLsbD_eq fun x hx => ?_
  rw [← Frame.pixel_of_lt f x y hy, ← Frame.pixel_of_lt g x y hy, h x y hx hy]

/-! ### The draw as a list of pixels -/

/-- The pixels one sprite row covers, in drawing order. -/
def rowPixels (vx py : Nat) (b : Byte) : List (Nat × Nat) :=
  ((List.range 8).filter fun col => b.getLsbD (7 - col)).map fun col => ((vx + col) % 64, py)

/-- The pixels a sprite covers from row number `row` on, in drawing order. -/
def spritePixels (vx vy row : Nat) (sprite : List Byte) : List (Nat × Nat) :=
  match sprite with
  | [] => []
  | b :: rest => rowPixels vx ((vy + row) % 32) b ++ spritePixels vx vy (row + 1) rest

/-- Draw a list of pixels. -/
def drawPixels (ps : List (Nat × Nat)) (acc : Frame × Bool) : Frame × Bool :=
  ps.foldl (fun acc p => drawPixel p.1 p.2 acc) acc

theorem drawRow_eq (vx py : Nat) (b : Byte) (acc : Frame × Bool) :
    drawRow vx py b acc = drawPixels (rowPixels vx py b) acc := by
  simp [drawRow, drawPixels, rowPixels, List.foldl_map, List.foldl_filter]

theorem drawRows_eq (vx vy row : Nat) (sprite : List Byte) (acc : Frame × Bool) :
    drawRows vx vy row sprite acc = drawPixels (spritePixels vx vy row sprite) acc := by
  induction sprite generalizing row acc with
  | nil => rfl
  | cons b rest ih => rw [drawRows, ih, drawRow_eq, spritePixels, drawPixels, drawPixels, drawPixels, List.foldl_append]

theorem mem_rowPixels (vx py : Nat) (b : Byte) (p : Nat × Nat) :
    p ∈ rowPixels vx py b ↔ ∃ col, col < 8 ∧ b.getLsbD (7 - col) = true ∧ p.1 = (vx + col) % 64 ∧ p.2 = py := by
  simp only [rowPixels, List.mem_map, List.mem_filter, List.mem_range]
  constructor
  · rintro ⟨col, ⟨h1, h2⟩, rfl⟩; exact ⟨col, h1, h2, rfl, rfl⟩
  · rintro ⟨col, h1, h2, h3, h4⟩; exact ⟨col, ⟨h1, h2⟩, Prod.ext h3.symm h4.symm⟩

theorem mem_spritePixels (vx vy row : Nat) (sprite : List Byte) (p : Nat × Nat) :
    p ∈ spritePixels vx vy row sprite ↔ ∃ k, k < sprite.length ∧ ∃ col, col < 8 ∧
      (sprite.getD k 0x00#8).getLsbD (7 - col) = true ∧ p.1 = (vx + col) % 64 ∧ p.2 = (vy + (row + k)) % 32 := by
  induction sprite generalizing row with
  | nil => simp [spritePixels]
  | cons b rest ih =>
    rw [spritePixels, List.mem_append, mem_rowPixels, ih]
    constructor
    · rintro (⟨col, h⟩ | ⟨k, hk, col, h1, h2, h3, h4⟩)
      · exact ⟨0, by simp, col, h⟩
      · exact ⟨k + 1, by simpa using hk, col, h1, h2, h3, by rw [h4]; congr 1; omega⟩
    · rintro ⟨k, hk, col, h1, h2, h3, h4⟩
      cases k with
      | zero => exact .inl ⟨col, h1, h2, h3, h4⟩
      | succ k =>
        exact .inr ⟨k, by simpa using hk, col, h1, h2, h3, by rw [h4]; congr 1; omega⟩

/-- One draw never touches the same pixel twice: 8 columns are fewer than 64, at most 32 rows do not meet (43_display R152). -/
theorem nodup_spritePixels (vx vy row : Nat) (sprite : List Byte) (h : sprite.length ≤ 32) :
    (spritePixels vx vy row sprite).Nodup := by
  induction sprite generalizing row with
  | nil => simp [spritePixels]
  | cons b rest ih =>
    rw [List.length_cons] at h
    rw [spritePixels, List.nodup_append']
    refine ⟨?_, ih (row + 1) (by omega), ?_⟩
    · refine List.Nodup.map_on ?_ (List.nodup_range.filter _)
      intro c hc d hd he
      have h1 := List.mem_range.1 (List.mem_filter.1 hc).1
      have h2 := List.mem_range.1 (List.mem_filter.1 hd).1
      have := congrArg Prod.fst he
      simp only at this
      omega
    · intro p hp hq
      obtain ⟨_, _, _, _, h4⟩ := (mem_rowPixels ..).1 hp
      obtain ⟨k, hk, _, _, _, _, h5⟩ := (mem_spritePixels ..).1 hq
      omega

/-- Drawing distinct pixels of the grid flips each of them, and the collision is whether one of them was 1. -/
theorem drawPixels_spec (ps : List (Nat × Nat)) (hn : ps.Nodup) (hg : ∀ p ∈ ps, p.1 < 64 ∧ p.2 < 32)
    (acc : Frame × Bool) :
    (∀ x y, (drawPixels ps acc).1.pixel x y = (acc.1.pixel x y ^^ decide ((x, y) ∈ ps))) ∧
      ((drawPixels ps acc).2 = true ↔ acc.2 = true ∨ ∃ p ∈ ps, acc.1.pixel p.1 p.2 = true) := by
  induction ps generalizing acc with
  | nil => simp [drawPixels]
  | cons p ps ih =>
    obtain ⟨hp, hn⟩ := List.nodup_cons.1 hn
    have hgp := hg p (by simp)
    obtain ⟨ih1, ih2⟩ := ih hn (fun q hq => hg q (by simp [hq])) (drawPixel p.1 p.2 acc)
    have e : drawPixels (p :: ps) acc = drawPixels ps (drawPixel p.1 p.2 acc) := rfl
    have hpix : ∀ x y, (drawPixel p.1 p.2 acc).1.pixel x y = (acc.1.pixel x y ^^ decide (x = p.1 ∧ y = p.2)) :=
      fun x y => Frame.pixel_flip _ _ _ _ _ hgp.1 hgp.2
    rw [e]
    constructor
    · intro x y
      rw [ih1, hpix]
      by_cases hxy : (x, y) = p
      · have h2 : x = p.1 ∧ y = p.2 := by rw [← hxy]; exact ⟨rfl, rfl⟩
        rw [decide_eq_true h2, decide_eq_false (hxy ▸ hp), decide_eq_true (by simp [hxy])]; simp
      · have h2 : ¬(x = p.1 ∧ y = p.2) := fun h => hxy (Prod.ext h.1 h.2)
        rw [decide_eq_false h2]; simp [hxy]
    · rw [ih2]
      have h2 : (drawPixel p.1 p.2 acc).2 = (acc.2 || acc.1.pixel p.1 p.2) := rfl
      have h3 : ∀ q ∈ ps, (drawPixel p.1 p.2 acc).1.pixel q.1 q.2 = acc.1.pixel q.1 q.2 := fun q hq => by
        rw [hpix, decide_eq_false (fun h => hp (by rwa [show p = q from Prod.ext h.1.symm h.2.symm]))]; simp
      rw [h2, Bool.or_eq_true, List.exists_mem_cons_iff, or_assoc]
      exact or_congr_right (or_congr_right (exists_congr fun q => and_congr_right fun hq => by rw [h3 q hq]))

theorem spritePixels_in_grid (vx vy row : Nat) (sprite : List Byte) :
    ∀ p ∈ spritePixels vx vy row sprite, p.1 < 64 ∧ p.2 < 32 := by
  intro p hp
  obtain ⟨k, _, col, _, _, h3, h4⟩ := (mem_spritePixels ..).1 hp
  omega

/-- The pixels of a sprite of bytes read from memory are those `SpriteCovers` names. -/
theorem mem_spritePixels_bytesAt (s : State) (a n vx vy x y : Nat) :
    (x, y) ∈ spritePixels vx vy 0 (s.bytesAt a n) ↔ SpriteCovers s.mem a vx vy n x y := by
  rw [mem_spritePixels, State.length_bytesAt, SpriteCovers]
  refine exists_congr fun k => and_congr_right fun hk => ?_
  rw [State.getD_bytesAt s a n k hk, Nat.zero_add]

/-- What DXYN's drawing does (43_display R152): every pixel a set sprite bit covers is flipped and no other, and the collision
is whether one of them was 1. -/
theorem drawSprite_spec (s : State) (a n vx vy : Nat) (hn : n ≤ 32) (f : Frame) :
    (∀ x y, ((drawSprite vx vy (s.bytesAt a n) f).1.pixel x y ≠ f.pixel x y) ↔ SpriteCovers s.mem a vx vy n x y) ∧
      ((drawSprite vx vy (s.bytesAt a n) f).2 = true ↔
        ∃ x y, SpriteCovers s.mem a vx vy n x y ∧ f.pixel x y = true) := by
  obtain ⟨h1, h2⟩ := drawPixels_spec (spritePixels vx vy 0 (s.bytesAt a n))
    (nodup_spritePixels _ _ _ _ (by simpa using hn)) (spritePixels_in_grid _ _ _ _) (f, false)
  rw [drawSprite, drawRows_eq]
  constructor
  · intro x y
    rw [h1, ← mem_spritePixels_bytesAt]
    by_cases h : (x, y) ∈ spritePixels vx vy 0 (s.bytesAt a n) <;> simp [h]
  · rw [h2]
    simp only [Bool.false_eq_true, false_or, Prod.exists, mem_spritePixels_bytesAt]

end Sys2Proof.Machine
end

