-- ==== Sys2Proof/Laws/Encoding.lean ====
section
/-! SUPPORT. The number of a packed word and of each of its fields: from these, facts about decode and encode are arithmetic. -/

namespace Sys2Proof

theorem toNat_append_eq_add {m n : Nat} (a : BitVec m) (b : BitVec n) : (a ++ b).toNat = a.toNat * 2 ^ n + b.toNat := by
  rw [BitVec.toNat_append, ← Nat.shiftLeft_add_eq_or_of_lt b.isLt, Nat.shiftLeft_eq]

theorem toNat_packNNN (op : Nibble) (nnn : Addr12) : (packNNN op nnn).toNat = op.toNat * 4096 + nnn.toNat :=
  toNat_append_eq_add op nnn

theorem toNat_packXNN (op x : Nibble) (nn : Byte) :
    (packXNN op x nn).toNat = op.toNat * 4096 + x.toNat * 256 + nn.toNat := by
  have h : (packXNN op x nn).toNat = (op ++ x).toNat * 2 ^ 8 + nn.toNat := toNat_append_eq_add (op ++ x) nn
  rw [h, toNat_append_eq_add]; omega

theorem toNat_packXYN (op x y n : Nibble) :
    (packXYN op x y n).toNat = op.toNat * 4096 + x.toNat * 256 + y.toNat * 16 + n.toNat := by
  have h : (packXYN op x y n).toNat = (op ++ x ++ y).toNat * 2 ^ 4 + n.toNat := toNat_append_eq_add (op ++ x ++ y) n
  rw [h, toNat_append_eq_add, toNat_append_eq_add]; omega

theorem toNat_fieldOp (w : Word) : (fieldOp w).toNat = w.toNat / 4096 := by
  have := w.isLt; simp [fieldOp, Nat.shiftRight_eq_div_pow]; omega

theorem toNat_fieldX (w : Word) : (fieldX w).toNat = w.toNat / 256 % 16 := by
  simp [fieldX, Nat.shiftRight_eq_div_pow]

theorem toNat_fieldY (w : Word) : (fieldY w).toNat = w.toNat / 16 % 16 := by
  simp [fieldY, Nat.shiftRight_eq_div_pow]

theorem toNat_fieldN (w : Word) : (fieldN w).toNat = w.toNat % 16 := by simp [fieldN]

theorem toNat_fieldNN (w : Word) : (fieldNN w).toNat = w.toNat % 256 := by simp [fieldNN]

theorem toNat_fieldNNN (w : Word) : (fieldNNN w).toNat = w.toNat % 4096 := by simp [fieldNNN]

@[simp] theorem fieldOp_packNNN (op : Nibble) (nnn : Addr12) : fieldOp (packNNN op nnn) = op := by
  have := op.isLt; have := nnn.isLt
  apply BitVec.eq_of_toNat_eq; rw [toNat_fieldOp, toNat_packNNN]; omega

@[simp] theorem fieldNNN_packNNN (op : Nibble) (nnn : Addr12) : fieldNNN (packNNN op nnn) = nnn := by
  have := nnn.isLt
  apply BitVec.eq_of_toNat_eq; rw [toNat_fieldNNN, toNat_packNNN]; omega

@[simp] theorem fieldOp_packXNN (op x : Nibble) (nn : Byte) : fieldOp (packXNN op x nn) = op := by
  have := op.isLt; have := x.isLt; have := nn.isLt
  apply BitVec.eq_of_toNat_eq; rw [toNat_fieldOp, toNat_packXNN]; omega

@[simp] theorem fieldX_packXNN (op x : Nibble) (nn : Byte) : fieldX (packXNN op x nn) = x := by
  have := x.isLt; have := nn.isLt
  apply BitVec.eq_of_toNat_eq; rw [toNat_fieldX, toNat_packXNN]; omega

@[simp] theorem fieldNN_packXNN (op x : Nibble) (nn : Byte) : fieldNN (packXNN op x nn) = nn := by
  have := nn.isLt
  apply BitVec.eq_of_toNat_eq; rw [toNat_fieldNN, toNat_packXNN]; omega

@[simp] theorem fieldOp_packXYN (op x y n : Nibble) : fieldOp (packXYN op x y n) = op := by
  have := op.isLt; have := x.isLt; have := y.isLt; have := n.isLt
  apply BitVec.eq_of_toNat_eq; rw [toNat_fieldOp, toNat_packXYN]; omega

@[simp] theorem fieldX_packXYN (op x y n : Nibble) : fieldX (packXYN op x y n) = x := by
  have := x.isLt; have := y.isLt; have := n.isLt
  apply BitVec.eq_of_toNat_eq; rw [toNat_fieldX, toNat_packXYN]; omega

@[simp] theorem fieldY_packXYN (op x y n : Nibble) : fieldY (packXYN op x y n) = y := by
  have := y.isLt; have := n.isLt
  apply BitVec.eq_of_toNat_eq; rw [toNat_fieldY, toNat_packXYN]; omega

@[simp] theorem fieldN_packXYN (op x y n : Nibble) : fieldN (packXYN op x y n) = n := by
  have := n.isLt
  apply BitVec.eq_of_toNat_eq; rw [toNat_fieldN, toNat_packXYN]; omega

/-- Every word is its op and NNN. -/
theorem packNNN_fields (w : Word) : packNNN (fieldOp w) (fieldNNN w) = w := by
  apply BitVec.eq_of_toNat_eq; rw [toNat_packNNN, toNat_fieldOp, toNat_fieldNNN]; omega

/-- Every word is its op, X and NN. -/
theorem packXNN_fields (w : Word) : packXNN (fieldOp w) (fieldX w) (fieldNN w) = w := by
  apply BitVec.eq_of_toNat_eq; rw [toNat_packXNN, toNat_fieldOp, toNat_fieldX, toNat_fieldNN]; omega

/-- Every word is its four nibbles. -/
theorem packXYN_fields (w : Word) : packXYN (fieldOp w) (fieldX w) (fieldY w) (fieldN w) = w := by
  apply BitVec.eq_of_toNat_eq; rw [toNat_packXYN, toNat_fieldOp, toNat_fieldX, toNat_fieldY, toNat_fieldN]; omega

/-- The bytes of a word in memory order, read back, are the word (20_memory R54). -/
theorem wordOfBytes_bytes (w : Word) : wordOfBytes (w.extractLsb' 8 8) (w.extractLsb' 0 8) = w := by
  have h : (wordOfBytes (w.extractLsb' 8 8) (w.extractLsb' 0 8)).toNat =
      (w.extractLsb' 8 8).toNat * 2 ^ 8 + (w.extractLsb' 0 8).toNat := toNat_append_eq_add _ _
  have := w.isLt
  apply BitVec.eq_of_toNat_eq
  rw [h]; simp [Nat.shiftRight_eq_div_pow]; omega

theorem getLsbD_packNNN (op : Nibble) (nnn : Addr12) (i : Nat) :
    (packNNN op nnn).getLsbD i = if i < 12 then nnn.getLsbD i else op.getLsbD (i - 12) := BitVec.getLsbD_append

theorem getLsbD_packXNN (op x : Nibble) (nn : Byte) (i : Nat) :
    (packXNN op x nn).getLsbD i =
      if i < 8 then nn.getLsbD i else if i - 8 < 4 then x.getLsbD (i - 8) else op.getLsbD (i - 8 - 4) := by
  have h : (packXNN op x nn).getLsbD i = if i < 8 then nn.getLsbD i else (op ++ x).getLsbD (i - 8) :=
    BitVec.getLsbD_append (x := op ++ x) (y := nn)
  rw [h, BitVec.getLsbD_append]

theorem getLsbD_packXYN (op x y n : Nibble) (i : Nat) :
    (packXYN op x y n).getLsbD i =
      if i < 4 then n.getLsbD i else if i - 4 < 4 then y.getLsbD (i - 4)
      else if i - 4 - 4 < 4 then x.getLsbD (i - 4 - 4) else op.getLsbD (i - 4 - 4 - 4) := by
  have h : (packXYN op x y n).getLsbD i = if i < 4 then n.getLsbD i else (op ++ x ++ y).getLsbD (i - 4) :=
    BitVec.getLsbD_append (x := op ++ x ++ y) (y := n)
  rw [h, BitVec.getLsbD_append, BitVec.getLsbD_append]

/-- The mask 0xF000 keeps op (30_encoding R75). -/
theorem packNNN_and_F000 (op : Nibble) (nnn : Addr12) : packNNN op nnn &&& 0xF000#16 = packNNN op 0x000#12 := by
  apply BitVec.eq_of_getLsbD_eq; intro i hi
  rw [BitVec.getLsbD_and, getLsbD_packNNN, getLsbD_packNNN]
  interval_cases i <;> simp

/-- The mask 0xF000 keeps op (30_encoding R75). -/
theorem packXNN_and_F000 (op x : Nibble) (nn : Byte) : packXNN op x nn &&& 0xF000#16 = packXNN op 0x0#4 0x00#8 := by
  apply BitVec.eq_of_getLsbD_eq; intro i hi
  rw [BitVec.getLsbD_and, getLsbD_packXNN, getLsbD_packXNN]
  interval_cases i <;> simp

/-- The mask 0xF0FF keeps op and the low byte (30_encoding R75). -/
theorem packXNN_and_F0FF (op x : Nibble) (nn : Byte) : packXNN op x nn &&& 0xF0FF#16 = packXNN op 0x0#4 nn := by
  apply BitVec.eq_of_getLsbD_eq; intro i hi
  rw [BitVec.getLsbD_and, getLsbD_packXNN, getLsbD_packXNN]
  interval_cases i <;> simp

/-- The mask 0xF000 keeps op (30_encoding R75). -/
theorem packXYN_and_F000 (op x y n : Nibble) :
    packXYN op x y n &&& 0xF000#16 = packXYN op 0x0#4 0x0#4 0x0#4 := by
  apply BitVec.eq_of_getLsbD_eq; intro i hi
  rw [BitVec.getLsbD_and, getLsbD_packXYN, getLsbD_packXYN]
  interval_cases i <;> simp

/-- The mask 0xF00F keeps op and N (30_encoding R75). -/
theorem packXYN_and_F00F (op x y n : Nibble) : packXYN op x y n &&& 0xF00F#16 = packXYN op 0x0#4 0x0#4 n := by
  apply BitVec.eq_of_getLsbD_eq; intro i hi
  rw [BitVec.getLsbD_and, getLsbD_packXYN, getLsbD_packXYN]
  interval_cases i <;> simp

end Sys2Proof
end

