-- ==== Sys2Proof/Laws/PerInstr.lean ====
section
/-! SUPPORT. Statements made per instruction. TableRow: the word the encoder gives an instruction has the fixed bits of that
instruction's row of 30_encoding R75 (mask and match of spec/opcode_table.json). -/

namespace Sys2Proof.Laws.TableRow

/-- The encoding of `i` has the fixed bits of its row. -/
def Statement (i : Instr) : Prop := encode i &&& (tableRow i).mask = (tableRow i).pattern

theorem halt : Statement .halt := rfl

theorem cls : Statement .cls := rfl

theorem ret : Statement .ret := rfl

theorem jpNnn (nnn : Addr12) : Statement (.jpNnn nnn) := packNNN_and_F000 _ _

theorem callNnn (nnn : Addr12) : Statement (.callNnn nnn) := packNNN_and_F000 _ _

theorem seVxNn (x : Nibble) (nn : Byte) : Statement (.seVxNn x nn) := packXNN_and_F000 _ _ _

theorem sneVxNn (x : Nibble) (nn : Byte) : Statement (.sneVxNn x nn) := packXNN_and_F000 _ _ _

theorem seVxVy (x y : Nibble) : Statement (.seVxVy x y) := packXYN_and_F00F _ _ _ _

theorem ldVxNn (x : Nibble) (nn : Byte) : Statement (.ldVxNn x nn) := packXNN_and_F000 _ _ _

theorem addVxNn (x : Nibble) (nn : Byte) : Statement (.addVxNn x nn) := packXNN_and_F000 _ _ _

theorem ldVxVy (x y : Nibble) : Statement (.ldVxVy x y) := packXYN_and_F00F _ _ _ _

theorem orVxVy (x y : Nibble) : Statement (.orVxVy x y) := packXYN_and_F00F _ _ _ _

theorem andVxVy (x y : Nibble) : Statement (.andVxVy x y) := packXYN_and_F00F _ _ _ _

theorem xorVxVy (x y : Nibble) : Statement (.xorVxVy x y) := packXYN_and_F00F _ _ _ _

theorem addVxVy (x y : Nibble) : Statement (.addVxVy x y) := packXYN_and_F00F _ _ _ _

theorem subVxVy (x y : Nibble) : Statement (.subVxVy x y) := packXYN_and_F00F _ _ _ _

theorem shrVx (x y : Nibble) : Statement (.shrVx x y) := packXYN_and_F00F _ _ _ _

theorem subnVxVy (x y : Nibble) : Statement (.subnVxVy x y) := packXYN_and_F00F _ _ _ _

theorem shlVx (x y : Nibble) : Statement (.shlVx x y) := packXYN_and_F00F _ _ _ _

theorem sneVxVy (x y : Nibble) : Statement (.sneVxVy x y) := packXYN_and_F00F _ _ _ _

theorem ldINnn (nnn : Addr12) : Statement (.ldINnn nnn) := packNNN_and_F000 _ _

theorem jpV0Nnn (nnn : Addr12) : Statement (.jpV0Nnn nnn) := packNNN_and_F000 _ _

theorem rndVxNn (x : Nibble) (nn : Byte) : Statement (.rndVxNn x nn) := packXNN_and_F000 _ _ _

theorem drwVxVyN (x y n : Nibble) : Statement (.drwVxVyN x y n) := packXYN_and_F000 _ _ _ _

theorem skpVx (x : Nibble) : Statement (.skpVx x) := packXNN_and_F0FF _ _ _

theorem sknpVx (x : Nibble) : Statement (.sknpVx x) := packXNN_and_F0FF _ _ _

theorem ldVxDt (x : Nibble) : Statement (.ldVxDt x) := packXNN_and_F0FF _ _ _

theorem ldVxK (x : Nibble) : Statement (.ldVxK x) := packXNN_and_F0FF _ _ _

theorem ldDtVx (x : Nibble) : Statement (.ldDtVx x) := packXNN_and_F0FF _ _ _

theorem ldStVx (x : Nibble) : Statement (.ldStVx x) := packXNN_and_F0FF _ _ _

theorem addIVx (x : Nibble) : Statement (.addIVx x) := packXNN_and_F0FF _ _ _

theorem ldFVx (x : Nibble) : Statement (.ldFVx x) := packXNN_and_F0FF _ _ _

theorem ldBVx (x : Nibble) : Statement (.ldBVx x) := packXNN_and_F0FF _ _ _

theorem ldMemVx (x : Nibble) : Statement (.ldMemVx x) := packXNN_and_F0FF _ _ _

theorem ldVxMem (x : Nibble) : Statement (.ldVxMem x) := packXNN_and_F0FF _ _ _

end Sys2Proof.Laws.TableRow
end

