-- ==== Sys2Proof/Laws/Step.lean ====
section
/-! SUPPORT. What a fetch and a step can do, said once (40_cycle R90, R91). -/

namespace Sys2Proof.Machine

/-- PC reached `PROG_END` (40_cycle R91): RUN only. -/
theorem State.fetch_end (s : State) (h : s.progEnd ≤ s.pc.toNat) : s.fetch = .ended (s.stop .haltEnd) := by
  rw [State.fetch, if_pos h]

/-- The second byte would be above 4095 (40_cycle R91): RUN and the diagnosis only. -/
theorem State.fetch_range (s : State) (h : s.pc.toNat < s.progEnd) (h2 : 4095 ≤ s.pc.toNat) :
    s.fetch = .ended (s.raiseRange (.address (max s.pc.toNat 4096))) := by
  rw [State.fetch, if_neg (by omega), if_pos (by omega)]; rfl

/-- A fetch that delivers a word (40_cycle R91, 20_memory R54). -/
theorem State.fetch_word (s : State) (h : s.pc.toNat < s.progEnd) (h2 : s.pc.toNat < 4095) :
    s.fetch = .word (wordOfBytes (s.mem.read s.pc.toNat) (s.mem.read (s.pc.toNat + 1))) (s.setPc (s.pc + 2#16)) := by
  rw [State.fetch, if_neg (by omega), if_neg (by omega)]

/-- The state a handler is entered with, as field updates. -/
theorem State.entered_eq (s : State) :
    s.entered = (s.clearOutputs.setKeys (s.keyFeed.headD s.key) s.keyFeed.tail).setPc (s.pc + 2#16) := by
  rw [State.entered, State.beginCycle_eq]

/-- An unknown word under SKIP (40_cycle R96). -/
theorem State.unknownWord_skip (s : State) (h : s.cfg.unknownPolicy = .skip) :
    s.unknownWord = (s.setEvent .unknownSkipped).tickTimers := by rw [State.unknownWord, h]

/-- An unknown word under HALT (40_cycle R96). -/
theorem State.unknownWord_halt (s : State) (h : s.cfg.unknownPolicy = .halt) : s.unknownWord = s.stop .haltUnknown := by
  rw [State.unknownWord, h]

/-- The end of a cycle that raised no status condition (40_cycle R98). -/
theorem State.endCycle_running (s : State) (h : s.run = .running) : s.endCycle = s.tickTimers := by
  rw [State.endCycle, if_pos h]

/-- The end of a cycle that raised a status condition: no tick (40_cycle R90). -/
theorem State.endCycle_stopped (s : State) (h : s.run ≠ .running) : s.endCycle = s := by
  rw [State.endCycle, if_neg h]

theorem State.beginCycle_fetch_word (s : State) (h : s.pc.toNat < s.progEnd) (h2 : s.pc.toNat < 4095) :
    s.beginCycle.fetch = .word s.nextWord s.entered := by
  have := State.fetch_word s.beginCycle (by simpa [State.beginCycle_eq] using h) (by simpa [State.beginCycle_eq] using h2)
  simpa [State.beginCycle_eq, State.nextWord, State.entered] using this

/-- Everything a step can do: nothing (not running), end at the fetch, skip or stop on an unknown word, or run the decoded
instruction and end the cycle. -/
theorem step_cases (s : State) :
    (s.run ≠ .running ∧ step s = .next s.clearOutputs) ∨
    (s.run = .running ∧ s.progEnd ≤ s.pc.toNat ∧ step s = .next (s.beginCycle.stop .haltEnd)) ∨
    (s.run = .running ∧ s.pc.toNat < s.progEnd ∧ 4095 ≤ s.pc.toNat ∧
      step s = .next (s.beginCycle.raiseRange (.address (max s.pc.toNat 4096)))) ∨
    (s.run = .running ∧ s.pc.toNat < s.progEnd ∧ s.pc.toNat < 4095 ∧
      (∃ e, decodeWord s.cfg.opt8XY0 s.nextWord = .error e) ∧ step s = .next s.entered.unknownWord) ∨
    (s.run = .running ∧ s.pc.toNat < s.progEnd ∧ s.pc.toNat < 4095 ∧
      ∃ i, decodeWord s.cfg.opt8XY0 s.nextWord = .ok i ∧ step s = endCycle (exec i s.entered)) := by
  by_cases hr : s.run = .running
  case neg => exact .inl ⟨hr, by rw [step, if_pos hr]⟩
  have hpe : s.beginCycle.progEnd = s.progEnd := by simp [State.beginCycle_eq]
  have hpc : s.beginCycle.pc = s.pc := by simp [State.beginCycle_eq]
  have hcfg : s.entered.cfg = s.cfg := by simp [State.entered, State.beginCycle_eq]
  by_cases h1 : s.progEnd ≤ s.pc.toNat
  · refine .inr (.inl ⟨hr, h1, ?_⟩)
    rw [step, if_neg (not_not_intro hr), State.fetch_end _ (by rw [hpe, hpc]; exact h1)]
  by_cases h2 : 4095 ≤ s.pc.toNat
  · refine .inr (.inr (.inl ⟨hr, by omega, h2, ?_⟩))
    rw [step, if_neg (not_not_intro hr), State.fetch_range _ (by rw [hpe, hpc]; omega) (by rw [hpc]; exact h2), hpc]
  refine .inr (.inr (.inr ?_))
  cases hd : decodeWord s.cfg.opt8XY0 s.nextWord with
  | error e =>
    refine .inl ⟨hr, by omega, by omega, ⟨e, rfl⟩, ?_⟩
    rw [step, if_neg (not_not_intro hr), State.beginCycle_fetch_word s (by omega) (by omega)]
    simp only [hcfg, hd]
  | ok i =>
    refine .inr ⟨hr, by omega, by omega, i, rfl, ?_⟩
    rw [step, if_neg (not_not_intro hr), State.beginCycle_fetch_word s (by omega) (by omega)]
    simp only [hcfg, hd]

/-- A cycle that executes `i` is its meaning on the entered state, then the end of the cycle. -/
theorem step_of_executes {s : State} {i : Instr} (h : s.executes i) : step s = endCycle (exec i s.entered) := by
  obtain ⟨⟨h1, h2, h3⟩, h4⟩ := h
  rcases step_cases s with ⟨e, _⟩ | ⟨_, e, _⟩ | ⟨_, _, e, _⟩ | ⟨_, _, _, ⟨e, he⟩, _⟩ | ⟨_, _, _, j, hj, h⟩
  · exact absurd h1 e
  · omega
  · omega
  · rw [h4] at he; cases he
  · rw [h4] at hj; cases hj; exact h

/-- A cycle that fetches an unknown word. -/
theorem step_of_unknown {s : State} {e : DecodeError} (hf : s.fetches)
    (h4 : decodeWord s.cfg.opt8XY0 s.nextWord = .error e) : step s = .next s.entered.unknownWord := by
  obtain ⟨h1, h2, h3⟩ := hf
  rcases step_cases s with ⟨e, _⟩ | ⟨_, e, _⟩ | ⟨_, _, e, _⟩ | ⟨_, _, _, _, h⟩ | ⟨_, _, _, j, hj, _⟩
  · exact absurd h1 e
  · omega
  · omega
  · exact h
  · rw [h4] at hj; cases hj

end Sys2Proof.Machine
end

