-- ==== Sys2Proof/Tests/Slice0.lean ====
section
/-! SUPPORT. Tests. Every expected result is a vector of 95_test_vectors (its id stands in the docstring: S, TE, TY, TC, TA, TD,
TK, TM, TL) or worked out by hand from the rule named; every word is written out from 30_encoding R75. The `witness_` theorems
show a state and operands that meet the hypotheses of the obligation they name. -/

namespace Sys2Proof.Tests

open Sys2Proof.Machine

/-! ### Helpers -/

/-- The reset state with some registers set. -/
def regs (l : List (Nibble × Byte)) : State := l.foldl (fun s p => s.setReg p.1 p.2) State.reset

/-- The next state of one step that fetches the word `w` at PC. -/
def after (s : State) (w : Nat) : Option State :=
  match step (s.withFetchWord 16 w) with
  | .next t => some t
  | _ => none

/-- The state of a load of `image` into the reset machine. -/
def loaded (image : List Byte) : State := (State.reset.loadImage image).1

/-- One step. -/
def tick (s : State) : Option State :=
  match step s with
  | .next t => some t
  | _ => none

/-! ### Well-formedness and decoding -/

/-- 30_encoding R80, D9: without `OPT_8XY0` there is no 8XY0. -/
theorem test_wf_refuses_8xy0 : Instr.wf false (.ldVxVy 0x1#4 0x2#4) = false ∧ Instr.wf true (.ldVxVy 0x1#4 0x2#4) = true ∧
    Instr.wf false (.orVxVy 0x1#4 0x2#4) = true := by decide

/-- Rows 1 to 5 of R75; TE1, TE5, TE16. -/
theorem test_decode_control : decodeWord true 0b0000000000000000#16 = .ok .halt ∧
    decodeWord true 0b0000000011100000#16 = .ok .cls ∧ decodeWord true 0b0000000011101110#16 = .ok .ret ∧
    decodeWord true 0b0001001010101011#16 = .ok (.jpNnn 0x2AB#12) ∧
    decodeWord true 0b0001000000000000#16 = .ok (.jpNnn 0x000#12) ∧
    decodeWord true 0b0010001010101011#16 = .ok (.callNnn 0x2AB#12) ∧
    decodeWord true 0b1011001100000001#16 = .ok (.jpV0Nnn 0x301#12) := by decide

/-- Rows 6, 7, 8, 20 of R75. -/
theorem test_decode_skips : decodeWord true 0b0011000101011010#16 = .ok (.seVxNn 0x1#4 0x5A#8) ∧
    decodeWord true 0b0100101000010000#16 = .ok (.sneVxNn 0xA#4 0x10#8) ∧
    decodeWord true 0b0101000100100000#16 = .ok (.seVxVy 0x1#4 0x2#4) ∧
    decodeWord true 0b1001000100100000#16 = .ok (.sneVxVy 0x1#4 0x2#4) := by decide

/-- Rows 9 to 19 and 23 of R75; TE3, TE15. -/
theorem test_decode_alu : decodeWord true 0b0110000011101010#16 = .ok (.ldVxNn 0x0#4 0xEA#8) ∧
    decodeWord true 0b0111000111111111#16 = .ok (.addVxNn 0x1#4 0xFF#8) ∧
    decodeWord true 0b1000000100100000#16 = .ok (.ldVxVy 0x1#4 0x2#4) ∧
    decodeWord true 0b1000000100100001#16 = .ok (.orVxVy 0x1#4 0x2#4) ∧
    decodeWord true 0b1000000100100010#16 = .ok (.andVxVy 0x1#4 0x2#4) ∧
    decodeWord true 0b1000000100100011#16 = .ok (.xorVxVy 0x1#4 0x2#4) ∧
    decodeWord true 0b1000101010110100#16 = .ok (.addVxVy 0xA#4 0xB#4) ∧
    decodeWord true 0b1000000100100101#16 = .ok (.subVxVy 0x1#4 0x2#4) ∧
    decodeWord true 0b1000000100100110#16 = .ok (.shrVx 0x1#4 0x2#4) ∧
    decodeWord true 0b1000000100100111#16 = .ok (.subnVxVy 0x1#4 0x2#4) ∧
    decodeWord true 0b1000000100101110#16 = .ok (.shlVx 0x1#4 0x2#4) ∧
    decodeWord true 0b1100001100001111#16 = .ok (.rndVxNn 0x3#4 0x0F#8) := by decide

/-- Row 24 of R75; TE2. -/
theorem test_decode_display : decodeWord true 0b1101000000010010#16 = .ok (.drwVxVyN 0x0#4 0x1#4 0x2#4) := by decide

/-- Rows 25 to 30 of R75. -/
theorem test_decode_keypad : decodeWord true 0b1110001010011110#16 = .ok (.skpVx 0x2#4) ∧
    decodeWord true 0b1110001010100001#16 = .ok (.sknpVx 0x2#4) ∧
    decodeWord true 0b1111001000000111#16 = .ok (.ldVxDt 0x2#4) ∧
    decodeWord true 0b1111000100001010#16 = .ok (.ldVxK 0x1#4) ∧
    decodeWord true 0b1111000000010101#16 = .ok (.ldDtVx 0x0#4) ∧
    decodeWord true 0b1111001100011000#16 = .ok (.ldStVx 0x3#4) := by decide

/-- Rows 21 and 31 to 35 of R75; TE4. -/
theorem test_decode_index : decodeWord true 0b1010001100000001#16 = .ok (.ldINnn 0x301#12) ∧
    decodeWord true 0b1111000100011110#16 = .ok (.addIVx 0x1#4) ∧
    decodeWord true 0b1111000000101001#16 = .ok (.ldFVx 0x0#4) ∧
    decodeWord true 0b1111000000110011#16 = .ok (.ldBVx 0x0#4) ∧
    decodeWord true 0b1111001001010101#16 = .ok (.ldMemVx 0x2#4) ∧
    decodeWord true 0b1111001101100101#16 = .ok (.ldVxMem 0x3#4) := by decide

/-- TE6 to TE14, and TE15 without `OPT_8XY0`: unknown words. -/
theorem test_decode_unknown : [0x00E1#16, 0x0123#16, 0x5121#16, 0x912F#16, 0x8128#16, 0x812F#16, 0xE19F#16, 0xF175#16,
    0xF100#16].all (fun w => decide (decodeWord true w = .error (.unknownWord w))) = true ∧
    decodeWord false 0x8120#16 = .error (.unknownWord 0x8120#16) := by decide

/-- A byte stream: one instruction and the rest; fewer than two bytes are no instruction (R70). -/
theorem test_decode_bytes : decodeBytes true [0x12#8, 0xAB#8, 0x00#8] = .ok (.jpNnn 0x2AB#12, [0x00#8]) ∧
    decodeBytes true [0x12#8] = .error .truncated := by decide

/-! ### The cycle -/

/-- TY1: PC = `PROG_END` ends the run; no tick. -/
theorem test_halt_end : (tick { State.reset with pc := 0x204#16, progEnd := 0x204, dt := 3#8 }).map
    (fun t => (t.run, t.pc, t.dt)) = some (.haltEnd, 0x204#16, 3#8) := by decide

/-- TY3: an empty image. -/
theorem test_halt_end_empty : (tick State.reset).map (fun t => (t.run, t.pc)) = some (.haltEnd, 0x200#16) := by decide

/-- TY4: the second byte of a fetch at 0xFFF. -/
theorem test_fetch_top : (tick { State.reset with pc := 0xFFF#16, progEnd := 0x1000 }).map
    (fun t => (t.run, t.info, t.pc)) = some (.fatalRange, some (.address 4096), 0xFFF#16) := by decide

/-- TY5: the last word of memory. -/
theorem test_fetch_last_word : (after { State.reset with pc := 0xFFE#16 } 0x6007).map
    (fun t => (t.reg 0x0#4, t.pc, t.progEnd, t.run)) = some (0x07#8, 0x1000#16, 0x1000, .running) := by decide

/-- TY6: an odd PC. -/
theorem test_fetch_odd : (after { State.reset with pc := 0x201#16 } 0x612A).map (fun t => (t.reg 0x1#4, t.pc)) =
    some (0x2A#8, 0x203#16) := by decide

/-- TY7: code below 0x200 runs. -/
theorem test_fetch_low : (after { State.reset with pc := 0x050#16 } 0x6201).map (fun t => (t.reg 0x2#4, t.pc)) =
    some (0x01#8, 0x052#16) := by decide

/-- TY8: the halt word; no tick. -/
theorem test_halt_word : (after { State.reset with pc := 0x20C#16, dt := 4#8, st := 2#8 } 0x0000).map
    (fun t => (t.run, t.pc, t.dt, t.st, t.event)) = some (.haltZero, 0x20E#16, 4#8, 2#8, .none) := by decide

/-- TY9: an unknown word under SKIP. -/
theorem test_unknown_skip : (after { State.reset with dt := 3#8 } 0x5121).map (fun t => (t.run, t.pc, t.dt, t.event)) =
    some (.running, 0x202#16, 2#8, .unknownSkipped) := by decide

/-- TY10: an unknown word under HALT. -/
theorem test_unknown_halt : (after { State.reset with dt := 3#8, cfg := { Config.default with unknownPolicy := .halt } } 0x5121).map
    (fun t => (t.run, t.pc, t.dt, t.event)) = some (.haltUnknown, 0x202#16, 3#8, .none) := by decide

/-- TY11: a machine that is not running. -/
theorem test_not_running : tick { State.reset with run := .haltZero, pc := 0x20E#16, progEnd := 0x300, dt := 4#8 } =
    some { State.reset with run := .haltZero, pc := 0x20E#16, progEnd := 0x300, dt := 4#8 } := by decide

/-- TY12, TY13: the timer tick. -/
theorem test_tick : (after { State.reset with dt := 1#8 } 0x6005).map (fun t => (t.dt, t.st)) = some (0#8, 0#8) ∧
    (after { State.reset with st := 255#8 } 0x6005).map (fun t => (t.dt, t.st)) = some (0#8, 254#8) := by decide

/-- An event lasts one cycle (60_exceptions R186). -/
theorem test_event_cleared : (after { State.reset with event := .keyWait } 0x6005).map (fun t => t.event) = some .none := by
  decide

/-! ### Control flow -/

/-- TC1. -/
theorem test_ret : (after { State.reset with stack := [0x206#16, 0x300#16], pc := 0x20C#16 } 0x00EE).map
    (fun t => (t.pc, t.stack)) = some (0x206#16, [0x300#16]) := by decide

/-- TC2. -/
theorem test_ret_empty : (after { State.reset with pc := 0x20C#16 } 0x00EE).map (fun t => (t.pc, t.stack, t.event, t.run)) =
    some (0x20E#16, [], .stackUnderflow, .running) := by decide

/-- TC4. -/
theorem test_call : (after { State.reset with stack := [0x206#16], pc := 0x20A#16 } 0x220A).map (fun t => (t.pc, t.stack)) =
    some (0x20A#16, [0x20C#16, 0x206#16]) := by decide

/-- TC18. -/
theorem test_call_overflow : (after
      { State.reset with stack := [0x20C#16, 0x206#16], cfg := { Config.default with stackDepth := some 2 } } 0x2300).map (fun t => (t.run, t.info, t.pc, t.stack)) =
    some (.fatalRange, some .stackOverflow, 0x202#16, [0x20C#16, 0x206#16]) := by decide

/-- TC5. -/
theorem test_jp : (after { State.reset with pc := 0x202#16 } 0x1200).map (fun t => t.pc) = some 0x200#16 := by decide

/-- TC15. -/
theorem test_jp_v0 : (after (regs [(0x0, 0x04)]) 0xB300).map (fun t => t.pc) = some 0x304#16 := by decide

/-- TC16. -/
theorem test_jp_v0_high : (after (regs [(0x0, 0xFF)]) 0xBFFF).map (fun t => (t.pc, t.reg 0xF#4)) =
    some (0x10FE#16, 0x00#8) := by decide

/-- TC7, TC8. -/
theorem test_se_nn : (after ({ State.reset with pc := 0x208#16 }) 0x3100).map (fun t => t.pc) = some 0x20C#16 ∧
    (after ((regs [(0x1, 0x01)]).setPc 0x208#16) 0x3100).map (fun t => t.pc) = some 0x20A#16 := by decide

/-- TC19: a taken skip past the top. -/
theorem test_se_nn_top : (after { State.reset with pc := 0xFFE#16 } 0x3100).map (fun t => (t.pc, t.run)) =
    some (0x1002#16, .running) := by decide

/-- TC9, TC10. -/
theorem test_sne_nn : (after (regs [(0xA, 0x11)]) 0x4A10).map (fun t => t.pc) = some 0x204#16 ∧
    (after (regs [(0xA, 0x10)]) 0x4A10).map (fun t => t.pc) = some 0x202#16 := by decide

/-- TC11, TC12. -/
theorem test_se_vy : (after (regs [(0x1, 0x7F), (0x2, 0x7F)]) 0x5120).map (fun t => t.pc) = some 0x204#16 ∧
    (after (regs [(0x1, 1), (0x2, 2)]) 0x5120).map (fun t => t.pc) = some 0x202#16 := by decide

/-- TC13, TC14. -/
theorem test_sne_vy : (after (regs [(0x1, 1), (0x2, 2)]) 0x9120).map (fun t => t.pc) = some 0x204#16 ∧
    (after (regs [(0x3, 9)]) 0x9330).map (fun t => t.pc) = some 0x202#16 := by decide

/-! ### Load, arithmetic, logic, shift, random -/

/-- TA1, TA2. -/
theorem test_ld_nn : (after (regs [(0x0, 0x11)]) 0x60EA).map (fun t => t.reg 0x0#4) = some 0xEA#8 ∧
    (after (regs []) 0x6F07).map (fun t => t.reg 0xF#4) = some 0x07#8 := by decide

/-- S2, TA5. -/
theorem test_add_nn : (after (regs [(0x3, 0xFF), (0xF, 0x5A)]) 0x7301).map (fun t => (t.reg 0x3#4, t.reg 0xF#4)) =
      some (0x00#8, 0x5A#8) ∧
    (after (regs [(0xF, 0xFE)]) 0x7F03).map (fun t => t.reg 0xF#4) = some 0x01#8 := by decide

/-- TA6. -/
theorem test_ld_vy : (after (regs [(0x2, 0x33)]) 0x8120).map (fun t => (t.reg 0x1#4, t.reg 0x2#4)) =
    some (0x33#8, 0x33#8) := by decide

/-- TE15: with `OPT_8XY0` false the word is unknown, and skipped. -/
theorem test_ld_vy_absent : (after { (regs [(0x2, 0x33)]) with cfg := { Config.default with opt8XY0 := false } } 0x8120).map
    (fun t => (t.reg 0x1#4, t.event)) = some (0x00#8, .unknownSkipped) := by decide

/-- TA7. -/
theorem test_or : (after (regs [(0x1, 0xF0), (0x2, 0x0F), (0xF, 0x77)]) 0x8121).map (fun t => (t.reg 0x1#4, t.reg 0xF#4)) =
    some (0xFF#8, 0x77#8) := by decide

/-- TA8. -/
theorem test_and : (after (regs [(0x1, 0xF0), (0x2, 0x3C), (0xF, 0x77)]) 0x8122).map (fun t => (t.reg 0x1#4, t.reg 0xF#4)) =
    some (0x30#8, 0x77#8) := by decide

/-- TA9. -/
theorem test_xor : (after (regs [(0x1, 0xF0), (0x2, 0x3C), (0xF, 0x77)]) 0x8123).map (fun t => (t.reg 0x1#4, t.reg 0xF#4)) =
    some (0xCC#8, 0x77#8) := by decide

/-- TA12 to TA14. -/
theorem test_add_vy : (after (regs [(0x1, 0x10), (0x2, 0x05), (0xF, 1)]) 0x8124).map (fun t => (t.reg 0x1#4, t.reg 0xF#4)) =
      some (0x15#8, 0#8) ∧
    (after (regs [(0x1, 0xFF)]) 0x8124).map (fun t => (t.reg 0x1#4, t.reg 0xF#4)) = some (0xFF#8, 0#8) ∧
    (after (regs [(0x1, 0xFF), (0x2, 0x01)]) 0x8124).map (fun t => (t.reg 0x1#4, t.reg 0xF#4)) = some (0x00#8, 1#8) := by
  decide

/-- TA16, TA17: X = F and Y = F. -/
theorem test_add_vf : (after (regs [(0xF, 0xF0), (0x2, 0x20)]) 0x8F24).map (fun t => t.reg 0xF#4) = some 1#8 ∧
    (after (regs [(0x1, 0x01), (0xF, 0xFF)]) 0x81F4).map (fun t => (t.reg 0x1#4, t.reg 0xF#4)) = some (0x00#8, 1#8) := by
  decide

/-- TA19 to TA21. -/
theorem test_sub : (after (regs [(0x1, 0x10), (0x2, 0x20)]) 0x8125).map (fun t => (t.reg 0x1#4, t.reg 0xF#4)) =
      some (0xF0#8, 0#8) ∧
    (after (regs [(0x1, 0x42), (0x2, 0x42)]) 0x8125).map (fun t => (t.reg 0x1#4, t.reg 0xF#4)) = some (0x00#8, 1#8) ∧
    (after (regs [(0x2, 0x01)]) 0x8125).map (fun t => (t.reg 0x1#4, t.reg 0xF#4)) = some (0xFF#8, 0#8) := by decide

/-- TA22, TA25. -/
theorem test_shr : (after (regs [(0x1, 0x05), (0x2, 0xEE)]) 0x8126).map (fun t => (t.reg 0x1#4, t.reg 0xF#4, t.reg 0x2#4)) =
      some (0x02#8, 1#8, 0xEE#8) ∧
    (after (regs [(0xF, 0x03)]) 0x8F06).map (fun t => t.reg 0xF#4) = some 1#8 := by decide

/-- TA26, TA27. -/
theorem test_subn : (after (regs [(0x1, 0x10), (0x2, 0x20)]) 0x8127).map (fun t => (t.reg 0x1#4, t.reg 0xF#4)) =
      some (0x10#8, 1#8) ∧
    (after (regs [(0x1, 0x20), (0x2, 0x10)]) 0x8127).map (fun t => (t.reg 0x1#4, t.reg 0xF#4)) = some (0xF0#8, 0#8) := by
  decide

/-- TA28, TA29. -/
theorem test_shl : (after (regs [(0x1, 0x81), (0x2, 0xEE)]) 0x812E).map (fun t => (t.reg 0x1#4, t.reg 0xF#4, t.reg 0x2#4)) =
      some (0x02#8, 1#8, 0xEE#8) ∧
    (after (regs [(0x1, 0x40)]) 0x810E).map (fun t => (t.reg 0x1#4, t.reg 0xF#4)) = some (0x80#8, 0#8) := by decide

/-- TA31, TA33: a byte the environment lined up. -/
theorem test_rnd : (after { State.reset with rndFeed := [0xA7#8, 0x11#8] } 0xC30F).map (fun t => (t.reg 0x3#4, t.rndFeed)) =
      some (0x07#8, [0x11#8]) ∧
    (after { State.reset with rndFeed := [0xA7#8] } 0xC3FF).map (fun t => t.reg 0x3#4) = some 0xA7#8 := by decide

/-- TA34: no byte lined up: a free value under the mask. -/
theorem test_rnd_free : (after State.reset 0xC3F0).map (fun t => t.reg 0x3#4) = some (Config.rndByte 0 &&& 0xF0#8) := rfl

/-! ### Display -/

/-- TD1, on a framebuffer of all ones. -/
theorem test_cls : (after { (regs [(0xF, 9)]) with fb := Vector.replicate 32 0xFFFFFFFFFFFFFFFF#64 } 0x00E0).map
    (fun t => (t.fb, t.reg 0xF#4)) = some (Vector.replicate 32 0x0#64, 9#8) := by decide

/-- TD3, wrapping on both axes: (62,31) (63,31) (62,0) (5,0) and no other pixel; TD5, a collision. -/
theorem test_drw : (after { (regs [(0x0, 62), (0x1, 31)]) with i := 0x300#16, mem := [(0x300, 0xC0#8), (0x301, 0x81#8)] }
      0xD012).map (fun t => (t.fb, t.reg 0xF#4)) =
      some ((Frame.clear.set 0 0x4000000000000020#64).set 31 0xC000000000000000#64, 0#8) ∧
    (after { State.reset with i := 0x300#16, mem := [(0x300, 0xC0#8)], fb := Frame.clear.set 0 0x2#64 } 0xD011).map
      (fun t => (t.fb[0], t.reg 0xF#4)) = some (0x1#64, 1#8) := by decide

/-- TD7, N = 0; TD9, a sprite out of range; TD11, X = F: the coordinate is read before VF is cleared. -/
theorem test_drw_edges : (after { (regs [(0xF, 1)]) with i := 0xFFFF#16, fb := Frame.clear.set 3 0x8#64 } 0xD010).map
      (fun t => (t.fb[3], t.reg 0xF#4, t.run)) = some (0x8#64, 0#8, .running) ∧
    (after ((regs [(0xF, 7)]).setI 0xFFE#16) 0xD013).map (fun t => (t.run, t.info, t.reg 0xF#4, t.pc)) =
      some (.fatalRange, some (.address 4096), 7#8, 0x202#16) ∧
    (after { (regs [(0xF, 5)]) with i := 0x300#16, mem := [(0x300, 0x80#8)] } 0xDF11).map (fun t => (t.fb[0], t.reg 0xF#4)) =
      some (0x20#64, 0#8) := by decide

/-! ### Keypad and timers -/

/-- TK1, TK2. -/
theorem test_skp : (after { (regs [(0x2, 7)]) with key := 0x0080#16 } 0xE29E).map (fun t => t.pc) = some 0x204#16 ∧
    (after { (regs [(0x2, 7)]) with key := 0xFF7F#16 } 0xE29E).map (fun t => t.pc) = some 0x202#16 := by decide

/-- TK5, TK6: VX above 15, under FAULT and under MASK. -/
theorem test_skp_index : (after (regs [(0x2, 0x10)]) 0xE29E).map (fun t => (t.run, t.info, t.pc)) =
      some (.fatalRange, some (.keyIndex 0x10#8), 0x202#16) ∧
    (after { (regs [(0x2, 0x17)]) with key := 0x0080#16, cfg := { Config.default with keyIndexPolicy := .mask } } 0xE29E).map
      (fun t => t.pc) = some 0x204#16 := by decide

/-- TK3, TK4; the sample of the cycle is the next value of the feed. -/
theorem test_sknp : (after (regs [(0x2, 7)]) 0xE2A1).map (fun t => t.pc) = some 0x204#16 ∧
    (after { (regs [(0x2, 7)]) with keyFeed := [0x0080#16] } 0xE2A1).map (fun t => t.pc) = some 0x202#16 := by decide

/-- TK7 (S4). -/
theorem test_wait_key : (after { (regs [(0x1, 0x33)]) with dt := 9#8 } 0xF10A).map
    (fun t => (t.pc, t.reg 0x1#4, t.dt, t.event)) = some (0x200#16, 0x33#8, 8#8, .keyWait) := by decide

/-- TK8, TK10. -/
theorem test_take_key : (after { (regs [(0x1, 0x33)]) with key := 0x0280#16 } 0xF10A).map (fun t => (t.reg 0x1#4, t.pc)) =
      some (0x07#8, 0x202#16) ∧
    (after { State.reset with key := 0x8000#16 } 0xFF0A).map (fun t => t.reg 0xF#4) = some 0x0F#8 := by decide

/-- TK11. -/
theorem test_ld_vx_dt : (after { State.reset with dt := 5#8 } 0xF207).map (fun t => (t.reg 0x2#4, t.dt)) =
    some (5#8, 4#8) := by decide

/-- TK13, TK15. -/
theorem test_ld_dt_vx : (after (regs [(0x0, 0x0A)]) 0xF015).map (fun t => t.dt) = some 9#8 ∧
    (after { State.reset with dt := 7#8 } 0xF015).map (fun t => t.dt) = some 0#8 := by decide

/-- TK16. -/
theorem test_ld_st_vx : (after (regs [(0x3, 0x02)]) 0xF318).map (fun t => t.st) = some 1#8 := by decide

/-! ### Index register and memory -/

/-- TM1. -/
theorem test_ld_i : (after State.reset 0xA300).map (fun t => t.i) = some 0x300#16 := by decide

/-- TM2, TM3. -/
theorem test_add_i : (after ((regs [(0x1, 2)]).setI 0x0FFF#16) 0xF11E).map (fun t => (t.i, t.reg 0xF#4)) =
      some (0x1001#16, 0#8) ∧
    (after ((regs [(0x1, 2)]).setI 0xFFFF#16) 0xF11E).map (fun t => t.i) = some 0x0001#16 := by decide

/-- TM4, TM5. -/
theorem test_ld_f : (after (regs [(0x0, 0x0A)]) 0xF029).map (fun t => t.i) = some 0x0032#16 ∧
    (after (regs [(0x0, 0xFF)]) 0xF029).map (fun t => t.i) = some 0x04FB#16 := by decide

/-- TM6, TM9. -/
theorem test_bcd : (after ((regs [(0x0, 0xEA)]).setI 0x300#16) 0xF033).map (fun t => (t.bytesAt 0x2FF 5, t.i)) =
      some ([0#8, 2#8, 3#8, 4#8, 0#8], 0x300#16) ∧
    (after ((regs [(0x0, 9)]).setI 0xFFD#16) 0xF033).map (fun t => t.bytesAt 0xFFD 3) = some [0#8, 0#8, 9#8] := by decide

/-- TM10. -/
theorem test_bcd_range : (after { (regs [(0x0, 9)]).setI 0xFFE#16 with mem := [(0xFFE, 0xAA#8)] } 0xF033).map
    (fun t => (t.run, t.info, t.bytesAt 0xFFE 2)) = some (.fatalRange, some (.address 4096), [0xAA#8, 0#8]) := by decide

/-- TM11, TM12. -/
theorem test_store : (after { (regs [(0x0, 1), (0x1, 2), (0x2, 3)]).setI 0x400#16 with mem := [(0x403, 0x77#8)] } 0xF255).map
      (fun t => (t.bytesAt 0x400 4, t.i)) = some ([1#8, 2#8, 3#8, 0x77#8], 0x400#16) ∧
    (after ((regs [(0x0, 0x5A), (0x1, 9)]).setI 0x400#16) 0xF055).map (fun t => t.bytesAt 0x400 2) =
      some [0x5A#8, 0#8] := by decide

/-- TM14: sixteen registers at 0xFF1. -/
theorem test_store_range : (after ((regs [(0x0, 1)]).setI 0xFF1#16) 0xFF55).map
    (fun t => (t.run, t.info, t.mem.read 0xFF1)) = some (.fatalRange, some (.address 4096), 0#8) := by decide

/-- TM15. -/
theorem test_load : (after { (regs [(0x3, 0x99)]).setI 0x300#16 with mem := [(0x300, 2#8), (0x301, 3#8), (0x302, 4#8)] } 0xF265).map
    (fun t => (t.reg 0x0#4, t.reg 0x1#4, t.reg 0x2#4, t.reg 0x3#4, t.i)) =
    some (2#8, 3#8, 4#8, 0x99#8, 0x300#16) := by decide

/-- TM16: I above 4095. -/
theorem test_load_range : (after ((regs [(0x0, 5)]).setI 0x1001#16) 0xF065).map
    (fun t => (t.run, t.info, t.reg 0x0#4)) = some (.fatalRange, some (.address 0x1001), 5#8) := by decide

/-! ### Memory, reset and load -/

/-- A store of what an unlisted address reads as lists nothing; the canonical form is ordered whatever the order of stores. -/
theorem test_memory_canonical : Memory.write [(0x300, 1#8)] 0x300 0x00#8 = [] ∧ Memory.write [] 0x000 0xF0#8 = [] ∧
    Memory.write (Memory.write [] 0x301 2#8) 0x300 1#8 = Memory.write (Memory.write [] 0x300 1#8) 0x301 2#8 ∧
    Memory.wf [(0x301, 2#8), (0x300, 1#8)] = false ∧ Memory.wf [(0x1000, 2#8)] = false := by decide

/-- TL1, and the first cycle of S1. -/
theorem test_load_image : (loaded [0x00#8, 0xE0#8, 0x12#8, 0x00#8]).bytesAt 0x200 4 = [0x00#8, 0xE0#8, 0x12#8, 0x00#8] ∧
    (loaded [0x00#8, 0xE0#8, 0x12#8, 0x00#8]).progEnd = 0x204 ∧
    (tick (loaded [0x00#8, 0xE0#8, 0x12#8, 0x00#8])).map (fun t => (t.pc, t.run)) = some (0x202#16, .running) := by decide

/-- 70_reset_and_hazards R212: the glyph of F is at 5 * 15. -/
theorem test_font : State.reset.bytesAt 75 5 = [0xF0#8, 0x80#8, 0xF0#8, 0x80#8, 0x80#8] ∧ fontTable.length = 80 := by decide

/-- 10_state R34, 60_exceptions R181, R186: the output codes; 10_state R39: the linear order of fb_out. -/
theorem test_outputs : { State.reset with run := .fatalRange }.statusOut = 4 ∧
    { State.reset with event := .keyWait }.eventOut = 3 ∧ State.reset.continues = true ∧
    { State.reset with fb := (Vector.replicate 32 0x0#64).set 1 0x4#64 }.fbOut 66 = true := by decide

/-! ### Witnesses: states and operands that meet the hypotheses of the obligations -/

/-- An instruction of each machine, 8XY0 where it exists. -/
theorem witness_DecodeOfEncodeIsTheInstruction : Instr.wf true (.ldVxVy 0xF#4 0xF#4) = true ∧
    Instr.wf false (.ldVxMem 0xF#4) = true := by decide

theorem witness_EncodeOfDecodeIsTheWord : decodeWord false 0x812E#16 = .ok (.shlVx 0x1#4 0x2#4) := by decide

/-- The two words R77 warns of, each with its own row; and a row that a word of it matches. -/
theorem witness_DecodedWordsAreTheTableRows : decodeWord true 0x8127#16 = .ok (.subnVxVy 0x1#4 0x2#4) ∧
    decodeWord true 0x8125#16 = .ok (.subVxVy 0x1#4 0x2#4) ∧ ⟨0x8007, 0xF00F⟩ ∈ opcodeRows false ∧
    0x8127#16 &&& 0xF00F#16 = 0x8007#16 := by decide

/-- A word that decodes, for the second clause. -/
theorem witness_UnknownWordsAreTheListedGroups : decodeWord true 0x8120#16 ≠ .error (.unknownWord 0x8120#16) := by decide

/-- The state of every `executes` witness: reset with one word at PC. -/
theorem executes_word (s : State) (w : Nat) (i : Instr) (h : (s.withFetchWord 16 w).fetches)
    (hd : decodeWord (s.withFetchWord 16 w).cfg.opt8XY0 (s.withFetchWord 16 w).nextWord = .ok i) :
    (s.withFetchWord 16 w).executes i := ⟨h, hd⟩

theorem witness_StepRunsTheDecodedInstruction : (State.reset.withFetchWord 16 0x8124).executes (.addVxVy 0x1#4 0x2#4) ∧
    exec (.addVxVy 0x1#4 0x2#4) State.reset = .next (State.reset.setRegThenFlag 0x1#4 0x00#8 0x00#8) ∧
    (State.reset.withFetchWord 16 0x0000).executes .halt :=
  ⟨executes_word _ _ _ ⟨rfl, by decide, by decide⟩ rfl, rfl, executes_word _ _ _ ⟨rfl, by decide, by decide⟩ rfl⟩

theorem witness_MachineNotRunningDoesNothing : { State.reset with run := .fatalRange }.run ≠ .running := by decide

theorem witness_FetchAtProgEndHalts : State.reset.run = .running ∧ State.reset.progEnd ≤ State.reset.pc.toNat := by decide

theorem witness_FetchAcrossTheTopIsFatal : ∃ s : State, s.run = .running ∧ s.progEnd ≤ 4096 ∧ s.pc.toNat < s.progEnd ∧
    s.pc.toNat = 4095 :=
  ⟨{ State.reset with pc := 0xFFF#16, progEnd := 0x1000 }, rfl, by decide, by decide, by decide⟩

theorem witness_HaltWordEndsTheRun : (State.reset.withFetchWord 16 0x0000).fetches ∧
    (State.reset.withFetchWord 16 0x0000).nextWord = 0x0000#16 := ⟨⟨rfl, by decide, by decide⟩, by decide⟩

/-- One state for each policy. -/
theorem witness_UnknownWordFollowsThePolicy : ∃ s u : State,
    (s.fetches ∧ decodeWord s.cfg.opt8XY0 s.nextWord = .error (.unknownWord s.nextWord) ∧ s.cfg.unknownPolicy = .skip) ∧
    (u.fetches ∧ decodeWord u.cfg.opt8XY0 u.nextWord = .error (.unknownWord u.nextWord) ∧ u.cfg.unknownPolicy = .halt) :=
  ⟨State.reset.withFetchWord 16 0x5121,
    { State.reset with cfg := { Config.default with unknownPolicy := .halt } }.withFetchWord 16 0x5121,
    ⟨⟨rfl, by decide, by decide⟩, rfl, rfl⟩, ⟨⟨rfl, by decide, by decide⟩, rfl, rfl⟩⟩

/-- At the highest PC a fetch allows, a taken skip; an unknown word; a call. -/
theorem witness_PcAfterACycleIsTheTable :
    (∃ s t : State, s.executes (.seVxNn 0x1#4 0x00#8) ∧ step s = .next t ∧ t.run = .running ∧ s.pc = 0xFFE#16) ∧
    (∃ (s t : State) (e : DecodeError), s.fetches ∧ decodeWord s.cfg.opt8XY0 s.nextWord = .error e ∧ step s = .next t ∧
      t.run = .running) ∧
    ∃ s t : State, s.executes (.callNnn 0x300#12) ∧ step s = .next t ∧ t.run = .running :=
  ⟨⟨{ State.reset with pc := 0xFFE#16 }.withFetchWord 16 0x3100, _,
      executes_word _ _ _ ⟨rfl, by decide, by decide⟩ rfl, rfl, rfl, rfl⟩,
    ⟨State.reset.withFetchWord 16 0x5121, _, .unknownWord 0x5121#16, ⟨rfl, by decide, by decide⟩, rfl, rfl, rfl⟩,
    ⟨State.reset.withFetchWord 16 0x2300, _, executes_word _ _ _ ⟨rfl, by decide, by decide⟩ rfl, rfl, rfl⟩⟩

theorem witness_TimerInstructionsTickInTheSameCycle : (State.reset.withFetchWord 16 0xF015).executes (.ldDtVx 0x0#4) ∧
    (State.reset.withFetchWord 16 0xFF18).executes (.ldStVx 0xF#4) ∧
    (State.reset.withFetchWord 16 0xF207).executes (.ldVxDt 0x2#4) :=
  ⟨executes_word _ _ _ ⟨rfl, by decide, by decide⟩ rfl, executes_word _ _ _ ⟨rfl, by decide, by decide⟩ rfl,
    executes_word _ _ _ ⟨rfl, by decide, by decide⟩ rfl⟩

/-- The table at its boundaries: sprite, digits and block at 4095 and 4096, the key index at 15 and 16, the stack at its depth. -/
theorem witness_RangeFaultsAreTheTable :
    rangeFault (.drwVxVyN 0x0#4 0x0#4 0x2#4) (State.reset.setI 0xFFE#16) = none ∧
    rangeFault (.drwVxVyN 0x0#4 0x0#4 0x3#4) (State.reset.setI 0xFFE#16) = some (.address 4096) ∧
    rangeFault (.drwVxVyN 0x0#4 0x0#4 0x0#4) (State.reset.setI 0xFFFF#16) = none ∧
    rangeFault (.ldBVx 0x0#4) (State.reset.setI 0xFFD#16) = none ∧
    rangeFault (.ldBVx 0x0#4) (State.reset.setI 0xFFE#16) = some (.address 4096) ∧
    rangeFault (.ldMemVx 0xF#4) (State.reset.setI 0xFF0#16) = none ∧
    rangeFault (.ldMemVx 0xF#4) (State.reset.setI 0xFF1#16) = some (.address 4096) ∧
    rangeFault (.ldVxMem 0x0#4) (State.reset.setI 0x1001#16) = some (.address 0x1001) ∧
    rangeFault (.skpVx 0x0#4) (State.reset.setReg 0x0#4 0x0F#8) = none ∧
    rangeFault (.sknpVx 0x0#4) (State.reset.setReg 0x0#4 0x10#8) = some (.keyIndex 0x10#8) ∧
    rangeFault (.callNnn 0x300#12) { State.reset with cfg := { Config.default with stackDepth := some 0 } } =
      some .stackOverflow := by decide

/-- A state of a loaded machine whose next cycle runs an instruction. -/
theorem witness_StepKeepsTheInvariant : (State.reset.withFetchWord 16 0x2300).Inv ∧
    (State.reset.withFetchWord 16 0x2300).executes (.callNnn 0x300#12) ∧
    ∃ t, step (State.reset.withFetchWord 16 0x2300) = .next t :=
  ⟨⟨by decide, by decide, by decide, by decide, fun a (ha : a ∈ ([] : List Word)) => absurd ha (by simp),
    fun d (hd : (none : Option Nat) = some d) => by cases hd⟩,
    executes_word _ _ _ ⟨rfl, by decide, by decide⟩ rfl, ⟨_, rfl⟩⟩

theorem witness_StepKeepsProgEndAndParameters : ∃ t : State, step (State.reset.withFetchWord 16 0x6005) = .next t := ⟨_, rfl⟩

/-- A next state that changes each part: a register, I, PC, the stack, DT, ST, memory, FB. -/
theorem witness_EachPartHasItsWriters :
    (∃ t, exec (.ldVxNn 0x3#4 0x07#8) State.reset = .next t ∧ t.reg 0x3#4 ≠ State.reset.reg 0x3#4) ∧
    (∃ t, exec (.ldINnn 0x300#12) State.reset = .next t ∧ t.i ≠ State.reset.i) ∧
    (∃ t, exec (.seVxNn 0x0#4 0x00#8) State.reset = .next t ∧ t.pc ≠ State.reset.pc) ∧
    (∃ t, exec (.callNnn 0x300#12) State.reset = .next t ∧ t.stack ≠ State.reset.stack) ∧
    (∃ t, exec (.ldDtVx 0x0#4) (regs [(0x0, 1)]) = .next t ∧ t.dt ≠ (regs [(0x0, 1)]).dt) ∧
    (∃ t, exec (.ldStVx 0x0#4) (regs [(0x0, 1)]) = .next t ∧ t.st ≠ (regs [(0x0, 1)]).st) ∧
    (∃ t, exec (.ldMemVx 0x0#4) State.reset = .next t ∧ t.mem.read 0 ≠ State.reset.mem.read 0) ∧
    (∃ t, exec (.drwVxVyN 0x0#4 0x0#4 0x1#4) State.reset = .next t ∧ t.fb ≠ State.reset.fb) :=
  ⟨⟨_, rfl, by decide⟩, ⟨_, rfl, by decide⟩, ⟨_, rfl, by decide⟩, ⟨_, rfl, by decide⟩, ⟨_, rfl, by decide⟩,
    ⟨_, rfl, by decide⟩, ⟨_, rfl, by decide⟩, ⟨_, rfl, by decide⟩⟩

/-- The same for RUN (the halt word, a range fault), the diagnosis, the event (RET, FX0A) and the random input. -/
theorem witness_EachPartHasItsWriters_outputs :
    (∃ t, exec .halt State.reset = .next t ∧ t.run ≠ State.reset.run) ∧
    (∃ t, exec (.ldBVx 0x0#4) (State.reset.setI 0xFFE#16) = .next t ∧ t.run ≠ State.reset.run ∧ t.info ≠ State.reset.info) ∧
    (∃ t, exec .ret State.reset = .next t ∧ t.event ≠ State.reset.event) ∧
    (∃ t, exec (.ldVxK 0x0#4) State.reset = .next t ∧ t.event ≠ State.reset.event) ∧
    (∃ t, exec (.rndVxNn 0x0#4 0x00#8) State.reset = .next t ∧ t.draws ≠ State.reset.draws) :=
  ⟨⟨_, rfl, by decide⟩, ⟨_, rfl, by decide, by decide⟩, ⟨_, rfl, by decide⟩, ⟨_, rfl, by decide⟩, ⟨_, rfl, by decide⟩⟩

/-- A flag writer that changes VF, one whose destination is VF, and an instruction that only has it as destination. -/
theorem witness_FlagHasItsWriters :
    (∃ t, exec (.subVxVy 0x0#4 0x0#4) State.reset = .next t ∧ t.reg 0xF#4 ≠ State.reset.reg 0xF#4) ∧
    (isFlagWriter (.addVxVy 0xF#4 0x2#4) = true ∧ rangeFault (.addVxVy 0xF#4 0x2#4) State.reset = none) ∧
    (isFlagWriter (.drwVxVyN 0x0#4 0x0#4 0x2#4) = true ∧
      rangeFault (.drwVxVyN 0x0#4 0x0#4 0x2#4) (State.reset.setI 0xFFE#16) = none) ∧
    (∃ t, exec (.ldVxNn 0xF#4 0x07#8) State.reset = .next t ∧ t.reg 0xF#4 ≠ State.reset.reg 0xF#4) :=
  ⟨⟨_, rfl, by decide⟩, by decide, by decide, ⟨_, rfl, by decide⟩⟩

theorem witness_ReturnPopsOrFallsThrough : { State.reset with stack := [0x206#16, 0x300#16] }.stack = 0x206#16 :: [0x300#16] ∧
    State.reset.stack = [] := by decide

/-- A jump inside the program, and one to an address at or above `PROG_END`. -/
theorem witness_JumpSetsPc : (State.reset.withFetchWord 16 0x1200).executes (.jpNnn 0x200#12) ∧
    (State.reset.withFetchWord 16 0x1FFF).executes (.jpNnn 0xFFF#12) ∧
    (State.reset.withFetchWord 16 0x1FFF).progEnd ≤ (0xFFF#12).toNat :=
  ⟨executes_word _ _ _ ⟨rfl, by decide, by decide⟩ rfl, executes_word _ _ _ ⟨rfl, by decide, by decide⟩ rfl, by decide⟩

/-- An unbounded stack, and a finite one with one entry left. -/
theorem witness_CallPushesAndJumps : State.reset.cfg.stackDepth ≠ some State.reset.stack.length ∧
    { State.reset with stack := [0x206#16], cfg := { Config.default with stackDepth := some 2 } }.cfg.stackDepth ≠
      some [0x206#16].length := by decide

theorem witness_CallThenReturnRestoresPc : State.reset.cfg.stackDepth ≠ some State.reset.stack.length := by decide

/-- N = 1 and N = 15 for the unknown words, X = Y for the skip. -/
theorem witness_SkipIfRegistersDiffer : (0x1#4 ≠ 0x0#4 ∧ 0xF#4 ≠ 0x0#4) ∧ ∃ x y : Nibble, x = y :=
  ⟨by decide, 0xF#4, 0xF#4, rfl⟩

/-- X = 0 and X = 0xE are not VF; both sides of each comparison. -/
theorem witness_AddSetsCarry : (0x0#4 ≠ 0xF#4 ∧ 0xE#4 ≠ 0xF#4) ∧ (0xFF#8).toNat + (0x01#8).toNat > 255 ∧
    ¬((0xFF#8).toNat + (0x00#8).toNat > 255) := by decide

theorem witness_SubtractSetsNoBorrow : 0x0#4 ≠ 0xF#4 ∧ (0x42#8).toNat ≥ (0x42#8).toNat ∧ (0x01#8).toNat > (0x00#8).toNat := by
  decide

theorem witness_ShiftsByOneSetTheDroppedBit : 0x0#4 ≠ 0xF#4 ∧ 0xE#4 ≠ 0xF#4 := by decide

theorem witness_RandomIsMaskedByNn : { State.reset with rndFeed := [0xA7#8] }.rndFeed = 0xA7#8 :: [] ∧
    State.reset.rndFeed = [] := by decide

/-- N = 0 with I out of range, and a sprite that ends at 4095. -/
theorem witness_DrawFlipsTheCoveredPixels :
    ((0x0#4).toNat = 0 ∨ (State.reset.setI 0xFFFF#16).i.toNat + (0x0#4).toNat - 1 ≤ 4095) ∧
    ((0xF#4).toNat = 0 ∨ (State.reset.setI 0xFF1#16).i.toNat + (0xF#4).toNat - 1 ≤ 4095) := by decide

/-- The state after the first draw, with everything between the two unchanged. -/
theorem witness_DrawTwiceRestoresTheFramebuffer : ∃ t : State,
    ((0x5#4).toNat = 0 ∨ State.reset.i.toNat + (0x5#4).toNat - 1 ≤ 4095) ∧
    exec (.drwVxVyN 0x0#4 0x1#4 0x5#4) State.reset = .next t ∧ t.i = State.reset.i ∧
    t.reg 0x0#4 = State.reset.reg 0x0#4 ∧ t.reg 0x1#4 = State.reset.reg 0x1#4 ∧
    (∀ k, k < (0x5#4).toNat → t.mem.read (State.reset.i.toNat + k) = State.reset.mem.read (State.reset.i.toNat + k)) :=
  ⟨_, by decide, rfl, rfl, rfl, rfl, fun _ _ => rfl⟩

/-- VX = 15 under FAULT, VX = 255 under MASK. -/
theorem witness_KeySkipsTestTheKey :
    (((regs [(0x2, 0x0F)]).reg 0x2#4).toNat ≤ 15 ∨ (regs [(0x2, 0x0F)]).cfg.keyIndexPolicy = .mask) ∧
    { (regs [(0x2, 0xFF)]) with cfg := { Config.default with keyIndexPolicy := .mask } }.cfg.keyIndexPolicy = .mask := by decide

/-- Key 0 and key 15 as the least pressed key, and no key. -/
theorem witness_WaitForKeyTakesTheLeastOrWaits :
    (0 < 16 ∧ { State.reset with key := 0xFFFF#16 }.key.getLsbD 0 = true ∧ ∀ j, j < 0 →
      { State.reset with key := 0xFFFF#16 }.key.getLsbD j = false) ∧
    (15 < 16 ∧ { State.reset with key := 0x8000#16 }.key.getLsbD 15 = true ∧ ∀ j, j < 15 →
      { State.reset with key := 0x8000#16 }.key.getLsbD j = false) ∧ State.reset.key = 0x0000#16 := by decide

theorem witness_BcdStoresTheDigits : (State.reset.setI 0xFFD#16).i.toNat + 2 ≤ 4095 := by decide

theorem witness_BlockStoreWritesTheRegisters : (State.reset.setI 0xFF0#16).i.toNat + (0xF#4).toNat ≤ 4095 ∧
    (State.reset.setI 0xFFF#16).i.toNat + (0x0#4).toNat ≤ 4095 := by decide

theorem witness_BlockLoadReadsTheRegisters : (State.reset.setI 0xFF0#16).i.toNat + (0xF#4).toNat ≤ 4095 ∧
    (State.reset.setI 0xFFF#16).i.toNat + (0x0#4).toNat ≤ 4095 := by decide

theorem witness_StoredWordIsFetched : 1 ≤ (0x1#4).toNat ∧ (State.reset.setI 0xFFE#16).i.toNat + (0x1#4).toNat ≤ 4095 := by
  decide

/-- The largest image, and the empty one. -/
theorem witness_ResetAndLoadLeaveTheTable : (List.replicate 3584 0x00#8).length ≤ 3584 ∧ ([] : List Byte).length ≤ 3584 ∧
    fontTable.length = 80 ∧ (List.replicate 4096 0x00#8).length = 4096 :=
  ⟨by rw [List.length_replicate], by decide, by decide, by rw [List.length_replicate]⟩

theorem witness_OversizedImageIsRejected : (List.replicate 3585 0x00#8).length > 3584 := by
  rw [List.length_replicate]; decide

end Sys2Proof.Tests
end

/-! SUPPORT. Control flow (41_control_flow): the decoding of 1NNN and 9XYN, the effect of the two meanings, the cycle that
executes a jump, and the obligations O24 and O29. -/

namespace Sys2Proof

/-- 30_encoding R75 row 4: every word with op 1 is a jump, 1000 included. -/
theorem decodeWord_packNNN_one (opt : Bool) (nnn : Addr12) :
    decodeWord opt (packNNN 0x1#4 nnn) = .ok (.jpNnn nnn) := by
  simp [decodeWord]

/-- 30_encoding R75 row 20: with op 9, only N = 0 is an instruction. -/
theorem decodeWord_packXYN_nine (opt : Bool) (x y n : Nibble) :
    decodeWord opt (packXYN 0x9#4 x y n) =
      if n = 0x0#4 then .ok (.sneVxVy x y) else .error (.unknownWord (packXYN 0x9#4 x y n)) := by
  simp [decodeWord]

namespace Machine

/-- 30_encoding R73: an address of the encoding keeps its number when widened to PC's 16 bits. -/
theorem toNat_zext16_addr12 (nnn : Addr12) : (zext16 nnn).toNat = nnn.toNat :=
  BitVec.toNat_setWidth_of_le (by decide)

/-- Writing PC changes nothing but PC. -/
theorem keepsExcept_setPc (s : State) (a : Word) : KeepsExcept [.pc] s (s.setPc a) := by
  simp [KeepsExcept]

/-- 41_control_flow R111. -/
theorem exec_jpNnn (nnn : Addr12) (s : State) : exec (.jpNnn nnn) s = .next (s.setPc (zext16 nnn)) := rfl

/-- 41_control_flow R117, R118: PC moves on exactly when the registers differ. -/
theorem exec_sneVxVy (x y : Nibble) (s : State) :
    exec (.sneVxVy x y) s = .next (s.setPc (if s.reg x ≠ s.reg y then s.pc + 2#16 else s.pc)) := by
  have h : exec (.sneVxVy x y) s = .next (s.skipIf (s.reg x != s.reg y)) := rfl
  simp [h, State.skipIf_eq]

/-! What the start of a cycle keeps (40_cycle R90). -/

@[simp] theorem State.entered_run (s : State) : s.entered.run = s.run := by simp [State.entered_eq]
@[simp] theorem State.entered_dt (s : State) : s.entered.dt = s.dt := by simp [State.entered_eq]
@[simp] theorem State.entered_st (s : State) : s.entered.st = s.st := by simp [State.entered_eq]
@[simp] theorem State.entered_progEnd (s : State) : s.entered.progEnd = s.progEnd := by simp [State.entered_eq]

/-- The cycle of a jump: the handler's state with the timers ticked (40_cycle R98, 41_control_flow R111). -/
theorem step_of_executes_jpNnn {s : State} {nnn : Addr12} (h : s.executes (.jpNnn nnn)) :
    step s = .next (s.entered.setPc (zext16 nnn)).tickTimers := by
  have hrun : (s.entered.setPc (zext16 nnn)).run = .running := by
    obtain ⟨⟨hr, -, -⟩, -⟩ := h
    simpa using hr
  rw [step_of_executes h, exec_jpNnn, endCycle, State.endCycle_running _ hrun]

/-- 40_cycle R91 (1): a running machine whose PC reached `PROG_END` ends its run. -/
theorem step_of_progEnd_le {s : State} (hrun : s.run = .running) (hpc : s.progEnd ≤ s.pc.toNat) :
    step s = .next (s.beginCycle.stop .haltEnd) := by
  rcases step_cases s with ⟨h, -⟩ | ⟨-, -, h⟩ | ⟨-, h, -⟩ | ⟨-, h, -⟩ | ⟨-, h, -⟩
  · exact absurd hrun h
  · exact h
  all_goals omega

end Machine

namespace Proofs

open Machine

/-- Settles O24: the cycle of a jump is `step_of_executes_jpNnn`, the next one `step_of_progEnd_le`. -/
theorem jumpSetsPc : Obligations.JumpSetsPc := by
  constructor
  · intro s nnn
    exact ⟨decodeWord_packNNN_one _ nnn, _, exec_jpNnn nnn s, toNat_zext16_addr12 nnn, keepsExcept_setPc s _⟩
  · intro s nnn h
    have hrun : (s.entered.setPc (zext16 nnn)).tickTimers.run = .running := by
      obtain ⟨⟨hr, -, -⟩, -⟩ := h
      simpa using hr
    refine ⟨_, step_of_executes_jpNnn h, toNat_zext16_addr12 nnn, ?_, ?_, hrun, fun hend => ?_⟩
    · simp [toNat_tickDown]
    · simp [toNat_tickDown]
    · exact ⟨_, step_of_progEnd_le hrun (by simpa [toNat_zext16_addr12] using hend), rfl⟩

/-- Settles O29: 9XYN by its N, the skip by `exec_sneVxVy`; one register does not differ from itself. -/
theorem skipIfRegistersDiffer : Obligations.SkipIfRegistersDiffer := by
  intro s x y
  refine ⟨?_, fun n hn => ?_, _, exec_sneVxVy x y s, rfl, fun hxy => ?_, keepsExcept_setPc s _⟩
  · rw [decodeWord_packXYN_nine, if_pos rfl]
  · rw [decodeWord_packXYN_nine, if_neg hn]
  · subst hxy
    simp

end Proofs

end Sys2Proof

/-! SUPPORT. Load and arithmetic (42_alu): the decoding of 7XNN, what a register write keeps, the effect of ADD VX, NN, and the
obligation O31. -/

namespace Sys2Proof

/-- 30_encoding R75: every word with op 7 adds an immediate. -/
theorem decodeWord_packXNN_seven (opt : Bool) (x : Nibble) (nn : Byte) :
    decodeWord opt (packXNN 0x7#4 x nn) = .ok (.addVxNn x nn) := by
  simp [decodeWord]

namespace Machine

/-- Writing one register changes nothing but that register. -/
theorem keepsExcept_setReg (s : State) (x : Nibble) (b : Byte) : KeepsExcept [.reg x] s (s.setReg x b) := by
  have hreg : ∀ y, Part.reg y ∉ [Part.reg x] → (s.setReg x b).reg y = s.reg y := fun y hy => by
    have hne : y ≠ x := by simpa using hy
    rw [State.reg_setReg, if_neg hne]
  exact ⟨hreg, by simp⟩

/-- 42_alu R131: the sum goes to VX, and no flag is written. -/
theorem exec_addVxNn (x : Nibble) (nn : Byte) (s : State) :
    exec (.addVxNn x nn) s = .next (s.setReg x (s.reg x + nn)) := rfl

end Machine

namespace Proofs

open Machine

/-- Settles O31: the meaning is one register write (`exec_addVxNn`), and the sum of two bytes wraps modulo 256. -/
theorem addImmediateWrapsAndSetsNoFlag : Obligations.AddImmediateWrapsAndSetsNoFlag := by
  intro s x nn
  refine ⟨decodeWord_packXNN_seven _ x nn, _, exec_addVxNn x nn s, ?_, keepsExcept_setReg s x _⟩
  rw [State.reg_setReg, if_pos rfl, BitVec.toNat_add]

end Proofs

end Sys2Proof

/-! SUPPORT. Display (43_display): the decoding of 00E0, what a framebuffer write keeps, the effect of CLS, and the
obligation O37. -/

namespace Sys2Proof

/-- 30_encoding R74, R75: the whole word 00E0 is CLS, whatever OPT_8XY0 is. -/
theorem decodeWord_00E0 (opt : Bool) : decodeWord opt 0x00E0#16 = .ok .cls := by
  have hop : fieldOp 0x00E0#16 = 0x0#4 := by decide
  have hgroup : decodeGroup0 0x00E0#16 = .ok .cls := by decide
  simp [decodeWord, hop, hgroup]

namespace Machine

/-- Writing the framebuffer changes nothing but the framebuffer, VF included. -/
theorem keepsExcept_setFb (s : State) (f : Frame) : KeepsExcept [.fb] s (s.setFb f) := by
  simp [KeepsExcept]

/-- 43_display R151: the cleared framebuffer replaces the old one, and no flag is written. -/
theorem exec_cls (s : State) : exec .cls s = .next (s.setFb Frame.clear) := rfl

end Machine

namespace Proofs

open Machine

/-- Settles O37: the meaning is one framebuffer write (`exec_cls`), and a cleared framebuffer has no set pixel. -/
theorem clearScreenClearsEveryCell : Obligations.ClearScreenClearsEveryCell := by
  intro s
  refine ⟨decodeWord_00E0 _, _, exec_cls s, fun px py _ _ => ?_, keepsExcept_setFb s Frame.clear⟩
  rw [State.setFb_fb, Frame.pixel_clear]

end Proofs

end Sys2Proof

/-! SUPPORT. Encoding (30_encoding): the decoder and the encoder undo each other, the rows of the opcode map and the unknown
words, and the obligations O1 to O6. -/

namespace Sys2Proof

/-- 30_encoding R75: the decoder undoes the encoder, constructor by constructor. -/
theorem decodeWord_encode {opt : Bool} {i : Instr} (h : i.wf opt = true) : decodeWord opt (encode i) = .ok i := by
  cases i with
  | halt => rfl
  | cls => exact decodeWord_00E0 opt
  | ret => rfl
  | ldVxVy x y => simp [encode, decodeWord, decodeGroup8, show opt = true from h]
  | _ => simp [encode, decodeWord, decodeGroup8, decodeGroupE, decodeGroupF]

/-! ### A word from its fields -/

theorem packNNN_of_fields {w : Word} {op : Nibble} (hop : fieldOp w = op) : packNNN op (fieldNNN w) = w := by
  rw [← hop, packNNN_fields]

theorem packXNN_of_fields {w : Word} {op : Nibble} {nn : Byte} (hop : fieldOp w = op) (hnn : fieldNN w = nn) :
    packXNN op (fieldX w) nn = w := by
  rw [← hop, ← hnn, packXNN_fields]

theorem packXYN_of_fields {w : Word} {op n : Nibble} (hop : fieldOp w = op) (hn : fieldN w = n) :
    packXYN op (fieldX w) (fieldY w) n = w := by
  rw [← hop, ← hn, packXYN_fields]

/-! ### Encoding what a word decodes to, level by level of 30_encoding R74 -/

theorem encode_of_decodeGroup0 {opt : Bool} {w : Word} {i : Instr} (h : decodeGroup0 w = .ok i) :
    encode i = w ∧ i.wf opt = true := by
  simp only [decodeGroup0] at h
  split_ifs at h with h1 h2 h3 <;> cases h
  · exact ⟨h1.symm, rfl⟩
  · exact ⟨h2.symm, rfl⟩
  · exact ⟨h3.symm, rfl⟩

theorem encode_of_decodeGroup8 {opt : Bool} {w : Word} {i : Instr} (hop : fieldOp w = 0x8#4)
    (h : decodeGroup8 opt w = .ok i) : encode i = w ∧ i.wf opt = true := by
  simp only [decodeGroup8] at h
  split at h
  case h_1 hn =>
    split at h <;> cases h
    case isTrue hopt => exact ⟨packXYN_of_fields hop hn, hopt⟩
  all_goals cases h
  all_goals rename_i hn; exact ⟨packXYN_of_fields hop hn, rfl⟩

theorem encode_of_decodeGroupE {opt : Bool} {w : Word} {i : Instr} (hop : fieldOp w = 0xE#4)
    (h : decodeGroupE w = .ok i) : encode i = w ∧ i.wf opt = true := by
  simp only [decodeGroupE] at h
  split at h <;> cases h
  all_goals rename_i hnn; exact ⟨packXNN_of_fields hop hnn, rfl⟩

theorem encode_of_decodeGroupF {opt : Bool} {w : Word} {i : Instr} (hop : fieldOp w = 0xF#4)
    (h : decodeGroupF w = .ok i) : encode i = w ∧ i.wf opt = true := by
  simp only [decodeGroupF] at h
  split at h <;> cases h
  all_goals rename_i hnn; exact ⟨packXNN_of_fields hop hnn, rfl⟩

/-- 30_encoding R74, R75: the encoder undoes the decoder, by the decoder's first level. -/
theorem encode_of_decodeWord {opt : Bool} {w : Word} {i : Instr} (h : decodeWord opt w = .ok i) :
    encode i = w ∧ i.wf opt = true := by
  simp only [decodeWord] at h
  split at h
  case h_1 => exact encode_of_decodeGroup0 h
  case h_9 hop => exact encode_of_decodeGroup8 hop h
  case h_15 hop => exact encode_of_decodeGroupE hop h
  case h_16 hop => exact encode_of_decodeGroupF hop h
  case h_6 hop | h_10 hop =>
    split at h <;> cases h
    case isTrue hn => exact ⟨packXYN_of_fields hop hn, rfl⟩
  case h_2 hop | h_3 hop | h_11 hop | h_12 hop => cases h; exact ⟨packNNN_of_fields hop, rfl⟩
  case h_4 hop | h_5 hop | h_7 hop | h_8 hop | h_13 hop => cases h; exact ⟨packXNN_of_fields hop rfl, rfl⟩
  case h_14 hop => cases h; exact ⟨packXYN_of_fields hop rfl, rfl⟩
  case h_17 => cases h

/-! ### Words that match a row: the fixed bits fix the fields that are no operands (30_encoding R74) -/

theorem fieldOp_of_and_F000 {w : Word} {op : Nibble} (h : w &&& 0xF000#16 = packNNN op 0x000#12) : fieldOp w = op := by
  rw [← packNNN_fields w, packNNN_and_F000] at h
  simpa using congrArg fieldOp h

theorem fields_of_and_F00F {w : Word} {op n : Nibble} (h : w &&& 0xF00F#16 = packXYN op 0x0#4 0x0#4 n) :
    fieldOp w = op ∧ fieldN w = n := by
  rw [← packXYN_fields w, packXYN_and_F00F] at h
  exact ⟨by simpa using congrArg fieldOp h, by simpa using congrArg fieldN h⟩

theorem fields_of_and_F0FF {w : Word} {op : Nibble} {nn : Byte} (h : w &&& 0xF0FF#16 = packXNN op 0x0#4 nn) :
    fieldOp w = op ∧ fieldNN w = nn := by
  rw [← packXNN_fields w, packXNN_and_F0FF] at h
  exact ⟨by simpa using congrArg fieldOp h, by simpa using congrArg fieldNN h⟩

theorem packNNN_of_and_F000 {w : Word} {op : Nibble} (h : w &&& 0xF000#16 = packNNN op 0x000#12) :
    packNNN op (fieldNNN w) = w :=
  packNNN_of_fields (fieldOp_of_and_F000 h)

theorem packXNN_of_and_F000 {w : Word} {op : Nibble} (h : w &&& 0xF000#16 = packNNN op 0x000#12) :
    packXNN op (fieldX w) (fieldNN w) = w :=
  packXNN_of_fields (fieldOp_of_and_F000 h) rfl

theorem packXYN_of_and_F000 {w : Word} {op : Nibble} (h : w &&& 0xF000#16 = packNNN op 0x000#12) :
    packXYN op (fieldX w) (fieldY w) (fieldN w) = w :=
  packXYN_of_fields (fieldOp_of_and_F000 h) rfl

theorem packXYN_of_and_F00F {w : Word} {op n : Nibble} (h : w &&& 0xF00F#16 = packXYN op 0x0#4 0x0#4 n) :
    packXYN op (fieldX w) (fieldY w) n = w :=
  packXYN_of_fields (fields_of_and_F00F h).1 (fields_of_and_F00F h).2

theorem packXNN_of_and_F0FF {w : Word} {op : Nibble} {nn : Byte} (h : w &&& 0xF0FF#16 = packXNN op 0x0#4 nn) :
    packXNN op (fieldX w) nn = w :=
  packXNN_of_fields (fields_of_and_F0FF h).1 (fields_of_and_F0FF h).2

theorem eq_of_and_FFFF {w p : Word} (h : w &&& 0xFFFF#16 = p) : p = w :=
  h.symm.trans BitVec.and_allOnes

/-- The instruction with the operands of a word: the same row, the fields of `w` as the format of the row names them. -/
def withFields (i : Instr) (w : Word) : Instr :=
  match i with
  | .halt => .halt
  | .cls => .cls
  | .ret => .ret
  | .jpNnn _ => .jpNnn (fieldNNN w)
  | .callNnn _ => .callNnn (fieldNNN w)
  | .seVxNn _ _ => .seVxNn (fieldX w) (fieldNN w)
  | .sneVxNn _ _ => .sneVxNn (fieldX w) (fieldNN w)
  | .seVxVy _ _ => .seVxVy (fieldX w) (fieldY w)
  | .ldVxNn _ _ => .ldVxNn (fieldX w) (fieldNN w)
  | .addVxNn _ _ => .addVxNn (fieldX w) (fieldNN w)
  | .ldVxVy _ _ => .ldVxVy (fieldX w) (fieldY w)
  | .orVxVy _ _ => .orVxVy (fieldX w) (fieldY w)
  | .andVxVy _ _ => .andVxVy (fieldX w) (fieldY w)
  | .xorVxVy _ _ => .xorVxVy (fieldX w) (fieldY w)
  | .addVxVy _ _ => .addVxVy (fieldX w) (fieldY w)
  | .subVxVy _ _ => .subVxVy (fieldX w) (fieldY w)
  | .shrVx _ _ => .shrVx (fieldX w) (fieldY w)
  | .subnVxVy _ _ => .subnVxVy (fieldX w) (fieldY w)
  | .shlVx _ _ => .shlVx (fieldX w) (fieldY w)
  | .sneVxVy _ _ => .sneVxVy (fieldX w) (fieldY w)
  | .ldINnn _ => .ldINnn (fieldNNN w)
  | .jpV0Nnn _ => .jpV0Nnn (fieldNNN w)
  | .rndVxNn _ _ => .rndVxNn (fieldX w) (fieldNN w)
  | .drwVxVyN _ _ _ => .drwVxVyN (fieldX w) (fieldY w) (fieldN w)
  | .skpVx _ => .skpVx (fieldX w)
  | .sknpVx _ => .sknpVx (fieldX w)
  | .ldVxDt _ => .ldVxDt (fieldX w)
  | .ldVxK _ => .ldVxK (fieldX w)
  | .ldDtVx _ => .ldDtVx (fieldX w)
  | .ldStVx _ => .ldStVx (fieldX w)
  | .addIVx _ => .addIVx (fieldX w)
  | .ldFVx _ => .ldFVx (fieldX w)
  | .ldBVx _ => .ldBVx (fieldX w)
  | .ldMemVx _ => .ldMemVx (fieldX w)
  | .ldVxMem _ => .ldVxMem (fieldX w)

theorem tableRow_withFields (i : Instr) (w : Word) : tableRow (withFields i w) = tableRow i := by
  cases i <;> rfl

theorem wf_withFields (opt : Bool) (i : Instr) (w : Word) : (withFields i w).wf opt = i.wf opt := by
  cases i <;> rfl

/-- A word with the fixed bits of the row of `i` is the encoding of an instruction of that row: the fields make up the rest. -/
theorem encode_withFields {i : Instr} {w : Word} (h : w &&& (tableRow i).mask = (tableRow i).pattern) :
    encode (withFields i w) = w := by
  cases i with
  | halt | cls | ret => exact eq_of_and_FFFF h
  | jpNnn | callNnn | ldINnn | jpV0Nnn => exact packNNN_of_and_F000 h
  | seVxNn | sneVxNn | ldVxNn | addVxNn | rndVxNn => exact packXNN_of_and_F000 h
  | drwVxVyN => exact packXYN_of_and_F000 h
  | skpVx | sknpVx | ldVxDt | ldVxK | ldDtVx | ldStVx | addIVx | ldFVx | ldBVx | ldMemVx | ldVxMem =>
    exact packXNN_of_and_F0FF h
  | seVxVy | ldVxVy | orVxVy | andVxVy | xorVxVy | addVxVy | subVxVy | shrVx | subnVxVy | shlVx | sneVxVy =>
    exact packXYN_of_and_F00F h

/-- The row of an instruction is in the opcode map of a machine that has the instruction. -/
theorem tableRow_mem {opt : Bool} {i : Instr} (h : i.wf opt = true) : tableRow i ∈ opcodeRows opt := by
  cases i with
  | ldVxVy x y => simp [tableRow, opcodeRows, opcodeRow8XY0, show opt = true from h]
  | _ => simp [tableRow, opcodeRows, opcodeRowsLow, opcodeRowsMid, opcodeRowsHigh]

/-- Every encoding has the fixed bits of its row (30_encoding R75). -/
theorem encode_and_mask (i : Instr) : encode i &&& (tableRow i).mask = (tableRow i).pattern := by
  cases i with
  | halt | cls | ret => rfl
  | jpNnn | callNnn | ldINnn | jpV0Nnn => exact packNNN_and_F000 _ _
  | seVxNn | sneVxNn | ldVxNn | addVxNn | rndVxNn => exact packXNN_and_F000 _ _ _
  | drwVxVyN => exact packXYN_and_F000 _ _ _ _
  | skpVx | sknpVx | ldVxDt | ldVxK | ldDtVx | ldStVx | addIVx | ldFVx | ldBVx | ldMemVx | ldVxMem =>
    exact packXNN_and_F0FF _ _ _
  | seVxVy | ldVxVy | orVxVy | andVxVy | xorVxVy | addVxVy | subVxVy | shrVx | subnVxVy | shlVx | sneVxVy =>
    exact packXYN_and_F00F _ _ _ _

theorem operandsAreFields_withFields (i : Instr) (w : Word) : operandsAreFields (withFields i w) w := by
  cases i with
  | halt | cls | ret => trivial
  | jpNnn | callNnn | ldINnn | jpV0Nnn => rfl
  | seVxNn | sneVxNn | ldVxNn | addVxNn | rndVxNn => exact ⟨rfl, rfl⟩
  | drwVxVyN => exact ⟨rfl, rfl, rfl⟩
  | skpVx | sknpVx | ldVxDt | ldVxK | ldDtVx | ldStVx | addIVx | ldFVx | ldBVx | ldMemVx | ldVxMem => rfl
  | seVxVy | ldVxVy | orVxVy | andVxVy | xorVxVy | addVxVy | subVxVy | shrVx | subnVxVy | shlVx | sneVxVy =>
    exact ⟨rfl, rfl⟩

/-- One instruction of each row of 30_encoding R75, in the table's order. -/
def tableInstrs : List Instr :=
  [.halt, .cls, .ret, .jpNnn 0, .callNnn 0, .seVxNn 0 0, .sneVxNn 0 0, .seVxVy 0 0, .ldVxNn 0 0, .addVxNn 0 0,
   .ldVxVy 0 0, .orVxVy 0 0, .andVxVy 0 0, .xorVxVy 0 0, .addVxVy 0 0, .subVxVy 0 0, .shrVx 0 0, .subnVxVy 0 0,
   .shlVx 0 0, .sneVxVy 0 0, .ldINnn 0, .jpV0Nnn 0, .rndVxNn 0 0, .drwVxVyN 0 0 0, .skpVx 0, .sknpVx 0, .ldVxDt 0,
   .ldVxK 0, .ldDtVx 0, .ldStVx 0, .addIVx 0, .ldFVx 0, .ldBVx 0, .ldMemVx 0, .ldVxMem 0]

theorem opcodeRows_eq (opt : Bool) : opcodeRows opt = (tableInstrs.filter (Instr.wf opt)).map tableRow := by
  cases opt <;> rfl

/-- Every row of the opcode map is the row of an instruction the machine has. -/
theorem exists_instr_of_mem_opcodeRows {opt : Bool} {r : OpcodeRow} (h : r ∈ opcodeRows opt) :
    ∃ i : Instr, i.wf opt = true ∧ tableRow i = r := by
  rw [opcodeRows_eq, List.mem_map] at h
  obtain ⟨i, hi, hr⟩ := h
  exact ⟨i, (List.mem_filter.1 hi).2, hr⟩

/-- 30_encoding R74: a word with the fixed bits of the row of `i` decodes to the instruction of that row with the word's fields. -/
theorem decodeWord_eq_withFields {opt : Bool} {w : Word} {i : Instr} (hwf : i.wf opt = true)
    (hw : w &&& (tableRow i).mask = (tableRow i).pattern) : decodeWord opt w = .ok (withFields i w) := by
  have hdec := decodeWord_encode (opt := opt) (i := withFields i w) (by rw [wf_withFields, hwf])
  rwa [encode_withFields hw] at hdec

/-- 30_encoding R71, R72: what a word decodes to has the fields of the word as its operands. -/
theorem withFields_of_decodeWord {opt : Bool} {w : Word} {i : Instr} (h : decodeWord opt w = .ok i) :
    withFields i w = i := by
  obtain ⟨henc, hwf⟩ := encode_of_decodeWord h
  have hmask : w &&& (tableRow i).mask = (tableRow i).pattern := by rw [← henc]; exact encode_and_mask i
  exact Except.ok.inj ((decodeWord_eq_withFields hwf hmask).symm.trans h)

/-- 30_encoding R74: a word that matches a row of the map decodes to an instruction of that row. -/
theorem decodeWord_of_row {opt : Bool} {w : Word} {r : OpcodeRow} (hr : r ∈ opcodeRows opt)
    (hw : w &&& r.mask = r.pattern) : ∃ i, decodeWord opt w = .ok i ∧ tableRow i = r := by
  obtain ⟨i, hwf, rfl⟩ := exists_instr_of_mem_opcodeRows hr
  exact ⟨_, decodeWord_eq_withFields hwf hw, tableRow_withFields i w⟩

theorem opcodeRows_nodup : (opcodeRows true).Nodup := by decide

/-! ### Unknown words, level by level (30_encoding R80) -/

theorem decodeGroup0_unknown_iff (w : Word) :
    decodeGroup0 w = .error (.unknownWord w) ↔ w ≠ 0x0000#16 ∧ w ≠ 0x00E0#16 ∧ w ≠ 0x00EE#16 := by
  simp only [decodeGroup0]
  split_ifs <;> simp [*]

theorem decodeGroup8_unknown_iff (opt : Bool) (w : Word) :
    decodeGroup8 opt w = .error (.unknownWord w) ↔
      fieldN w ∈ [0x8#4, 0x9#4, 0xA#4, 0xB#4, 0xC#4, 0xD#4, 0xF#4] ∨ (fieldN w = 0x0#4 ∧ opt = false) := by
  have hrest : ∀ n : Nibble, n ≠ 0x0#4 → n ≠ 0x1#4 → n ≠ 0x2#4 → n ≠ 0x3#4 → n ≠ 0x4#4 → n ≠ 0x5#4 → n ≠ 0x6#4 →
      n ≠ 0x7#4 → n ≠ 0xE#4 → n ∈ [0x8#4, 0x9#4, 0xA#4, 0xB#4, 0xC#4, 0xD#4, 0xF#4] := by decide
  simp only [decodeGroup8]
  split
  case h_1 hn => cases opt <;> simp [hn]
  case h_10 h0 h1 h2 h3 h4 h5 h6 h7 hE => simp only [true_iff]; exact .inl (hrest _ h0 h1 h2 h3 h4 h5 h6 h7 hE)
  all_goals rename_i hn; simp [hn]

theorem decodeGroupE_unknown_iff (w : Word) :
    decodeGroupE w = .error (.unknownWord w) ↔ fieldNN w ∉ [0x9E#8, 0xA1#8] := by
  simp only [decodeGroupE]
  split
  case h_3 h1 h2 => simpa using ⟨h1, h2⟩
  all_goals rename_i hnn; simp [hnn]

theorem decodeGroupF_unknown_iff (w : Word) :
    decodeGroupF w = .error (.unknownWord w) ↔
      fieldNN w ∉ [0x07#8, 0x0A#8, 0x15#8, 0x18#8, 0x1E#8, 0x29#8, 0x33#8, 0x55#8, 0x65#8] := by
  simp only [decodeGroupF]
  split
  case h_10 h1 h2 h3 h4 h5 h6 h7 h8 h9 => simpa using ⟨h1, h2, h3, h4, h5, h6, h7, h8, h9⟩
  all_goals rename_i hnn; simp [hnn]

/-- The first level of 30_encoding R74 covers every op. -/
theorem mem_nibbles : ∀ n : Nibble, n ∈ [0x0#4, 0x1#4, 0x2#4, 0x3#4, 0x4#4, 0x5#4, 0x6#4, 0x7#4, 0x8#4, 0x9#4, 0xA#4,
    0xB#4, 0xC#4, 0xD#4, 0xE#4, 0xF#4] := by decide

/-- The decoder rejects a word by its own name. -/
theorem decodeWord_eq_error {opt : Bool} {w : Word} {e : DecodeError} (h : decodeWord opt w = .error e) :
    e = .unknownWord w := by
  simp only [decodeWord] at h
  split at h
  case h_1 => simp only [decodeGroup0] at h; split_ifs at h; cases h; rfl
  case h_9 =>
    simp only [decodeGroup8] at h
    split at h <;> try split at h
    all_goals cases h
    all_goals rfl
  case h_15 => simp only [decodeGroupE] at h; split at h <;> cases h; rfl
  case h_16 => simp only [decodeGroupF] at h; split at h <;> cases h; rfl
  case h_6 | h_10 => split at h <;> cases h; rfl
  all_goals cases h
  case h_17 => rfl

/-- 20_memory R54: the two bytes of an instruction decode as its word. -/
theorem decodeBytes_encodeBytes {opt : Bool} {i : Instr} (h : i.wf opt = true) :
    decodeBytes opt (encodeBytes i) = .ok (i, []) := by
  simp [decodeBytes, encodeBytes, bytesOfWord, wordOfBytes_bytes, decodeWord_encode h]

namespace Proofs

/-- Settles O1: closed evaluations of the decoder on fixed words. -/
theorem writtenWordsDecode : Obligations.WrittenWordsDecode := by
  unfold Obligations.WrittenWordsDecode
  decide

/-- Settles O2: `decodeWord_encode`, and the same for the two bytes. -/
theorem decodeOfEncodeIsTheInstruction : Obligations.DecodeOfEncodeIsTheInstruction :=
  fun _ _ h => ⟨decodeWord_encode h, decodeBytes_encodeBytes h⟩

/-- Settles O3: `encode_of_decodeWord`. -/
theorem encodeOfDecodeIsTheWord : Obligations.EncodeOfDecodeIsTheWord :=
  fun _ _ _ h => encode_of_decodeWord h

/-- Settles O4: the row and its fixed bits by `encode_of_decodeWord`, the operands by `withFields_of_decodeWord`, the converse by
`decodeWord_of_row`. -/
theorem decodedWordsAreTheTableRows : Obligations.DecodedWordsAreTheTableRows := by
  intro opt w
  refine ⟨fun i h => ?_, fun r hr hw => decodeWord_of_row hr hw⟩
  obtain ⟨henc, hwf⟩ := encode_of_decodeWord h
  refine ⟨tableRow_mem hwf, ?_, ?_⟩
  · rw [← henc]
    exact encode_and_mask i
  · rw [← withFields_of_decodeWord h]
    exact operandsAreFields_withFields i w

/-- Settles O5: a word that matches two rows decodes to an instruction of each (`decodeWord_of_row`), so they are one row; and no
row is listed twice. -/
theorem tableRowsAreDisjoint : Obligations.TableRowsAreDisjoint := by
  refine List.Pairwise.imp_of_mem (fun {r q} hr hq hne w hw => ?_) opcodeRows_nodup
  obtain ⟨hwr, hwq⟩ := hw
  obtain ⟨i, hi, rfl⟩ := decodeWord_of_row hr hwr
  obtain ⟨j, hj, rfl⟩ := decodeWord_of_row hq hwq
  rw [hi] at hj
  exact hne (congrArg tableRow (Except.ok.inj hj))

/-- Settles O6: the first level by op, the second by the `_unknown_iff` of its group; every error names the word
(`decodeWord_eq_error`). -/
theorem unknownWordsAreTheListedGroups : Obligations.UnknownWordsAreTheListedGroups := by
  intro opt w
  constructor
  · simp only [decodeWord]
    split
    case h_1 hop => simp [hop, decodeGroup0_unknown_iff]
    case h_9 hop => simp [hop, decodeGroup8_unknown_iff]
    case h_15 hop => simp [hop, decodeGroupE_unknown_iff]
    case h_16 hop => simp [hop, decodeGroupF_unknown_iff]
    case h_6 hop | h_10 hop => split <;> simp [*]
    case h_17 => have hop := mem_nibbles (fieldOp w); simp_all
    all_goals rename_i hop; simp [hop]
  · intro h
    cases hd : decodeWord opt w with
    | ok i => exact ⟨i, rfl⟩
    | error e => exact absurd (by rw [hd, decodeWord_eq_error hd]) h

end Proofs

end Sys2Proof

/-! SUPPORT. What each meaning is, said once: the equation of every arm of `exec` in the shared operations, what each operation
keeps, the parts a meaning may write, and from these the frame of every instruction. -/

namespace Sys2Proof.Machine

/-! ### The frame: it grows with its list, and frames compose -/

theorem KeepsExcept.mono {ps qs : List Part} {s t : State} (h : KeepsExcept ps s t) (hsub : ps ⊆ qs) :
    KeepsExcept qs s t := by
  have hnot : ∀ p, p ∉ qs → p ∉ ps := fun p hq hp => hq (hsub hp)
  simp_all [KeepsExcept]

theorem KeepsExcept.trans {ps qs : List Part} {s t u : State} (h : KeepsExcept ps s t) (h' : KeepsExcept qs t u) :
    KeepsExcept (ps ++ qs) s u := by
  have h1 := h.mono (List.subset_append_left ps qs)
  have h2 := h'.mono (List.subset_append_right ps qs)
  simp_all [KeepsExcept]

/-! A part outside the list is as before. -/

section
variable {ps : List Part} {s t : State} (h : KeepsExcept ps s t)
include h

theorem KeepsExcept.pc_eq (hn : .pc ∉ ps) : t.pc = s.pc := by
  obtain ⟨-, -, hpc, -⟩ := h
  exact hpc hn

theorem KeepsExcept.stack_eq (hn : .stack ∉ ps) : t.stack = s.stack := by
  obtain ⟨-, -, -, hstack, -⟩ := h
  exact hstack hn

theorem KeepsExcept.run_eq (hn : .run ∉ ps) : t.run = s.run := by
  obtain ⟨-, -, -, -, -, -, -, -, -, hrun, -⟩ := h
  exact hrun hn

theorem KeepsExcept.info_eq (hn : .info ∉ ps) : t.info = s.info := by
  obtain ⟨-, -, -, -, -, -, -, -, -, -, -, hinfo, -⟩ := h
  exact hinfo hn

theorem KeepsExcept.progEnd_eq : t.progEnd = s.progEnd := by
  obtain ⟨-, -, -, -, -, -, -, -, -, -, -, -, -, hpe, -⟩ := h
  exact hpe

theorem KeepsExcept.cfg_eq : t.cfg = s.cfg := by
  obtain ⟨-, -, -, -, -, -, -, -, -, -, -, -, -, -, hcfg⟩ := h
  exact hcfg

end

/-! ### What each operation keeps -/

theorem keepsExcept_setI (s : State) (a : Word) : KeepsExcept [.i] s (s.setI a) := by simp [KeepsExcept]

theorem keepsExcept_setStack (s : State) (l : List Word) : KeepsExcept [.stack] s (s.setStack l) := by simp [KeepsExcept]

theorem keepsExcept_push (s : State) (a : Word) : KeepsExcept [.stack] s (s.push a) := keepsExcept_setStack s _

theorem keepsExcept_setDt (s : State) (b : Byte) : KeepsExcept [.dt] s (s.setDt b) := by simp [KeepsExcept]

theorem keepsExcept_setSt (s : State) (b : Byte) : KeepsExcept [.st] s (s.setSt b) := by simp [KeepsExcept]

theorem keepsExcept_setEvent (s : State) (e : Event) : KeepsExcept [.event] s (s.setEvent e) := by simp [KeepsExcept]

theorem keepsExcept_stop (s : State) (r : Run) : KeepsExcept [.run] s (s.stop r) := by simp [KeepsExcept]

theorem keepsExcept_raiseRange (s : State) (d : RangeInfo) : KeepsExcept [.run, .info] s (s.raiseRange d) := by
  simp [KeepsExcept]

theorem keepsExcept_nextRnd (s : State) : KeepsExcept [.rnd] s s.nextRnd := by simp [KeepsExcept]

theorem keepsExcept_tickTimers (s : State) : KeepsExcept [.dt, .st] s s.tickTimers := by simp [KeepsExcept]

theorem keepsExcept_setRegThenFlag (s : State) (x : Nibble) (b f : Byte) :
    KeepsExcept [.reg x, .reg 0xF#4] s (s.setRegThenFlag x b f) :=
  (keepsExcept_setReg s x b).trans (keepsExcept_setReg _ 0xF#4 f)

/-- The bytes of a block of `len` bytes at `a`. -/
def blockParts (a len : Nat) : List Part := (List.range len).map fun k => .byte (a + k)

/-- The registers V0, V1, ..., V(count-1). -/
def regParts (count : Nat) : List Part := (List.range count).map fun k => .reg (BitVec.ofNat 4 k)

theorem byte_mem_blockParts (a len b : Nat) : Part.byte b ∈ blockParts a len ↔ a ≤ b ∧ b < a + len := by
  simp only [blockParts, List.mem_map, List.mem_range, Part.byte.injEq]
  exact ⟨fun ⟨k, hk, he⟩ => by omega, fun h => ⟨b - a, by omega, by omega⟩⟩

theorem reg_mem_regParts (count : Nat) (r : Nibble) : Part.reg r ∈ regParts count ↔ r.toNat < count := by
  simp only [regParts, List.mem_map, List.mem_range, Part.reg.injEq]
  constructor
  · rintro ⟨k, hk, rfl⟩
    rw [BitVec.toNat_ofNat]
    exact (Nat.mod_le ..).trans_lt hk
  · exact fun h => ⟨r.toNat, h, by simp⟩

/-- 20_memory R53, R56: a store changes the bytes of its block only. -/
theorem keepsExcept_store (s : State) (a : Nat) (bytes : List Byte) :
    KeepsExcept (blockParts a bytes.length) s (s.store a bytes) := by
  have hbyte : ∀ b, Part.byte b ∉ blockParts a bytes.length → (s.store a bytes).mem.read b = s.mem.read b := fun b hb => by
    rw [State.read_store, if_neg (by rwa [← byte_mem_blockParts])]
  simpa [KeepsExcept] using hbyte

/-- 45_index_memory R176: a block of bytes written to V0, V1, ... changes these registers only. -/
theorem keepsExcept_setRegs (s : State) (bytes : List Byte) (hlen : bytes.length ≤ 16) :
    KeepsExcept (regParts bytes.length) s (s.setRegs 0 bytes) := by
  have hreg : ∀ r, Part.reg r ∉ regParts bytes.length → (s.setRegs 0 bytes).reg r = s.reg r := fun r hr => by
    rw [reg_mem_regParts] at hr
    rw [State.reg_setRegs _ _ _ (by omega), if_neg (by omega)]
  refine ⟨hreg, ?_⟩
  rw [State.setRegs_eq]
  simp

theorem keepsExcept_draw (s : State) (x y n : Nibble) : KeepsExcept [.fb, .reg 0xF#4] s (s.draw x y n) :=
  (keepsExcept_setFb s _).trans (keepsExcept_setReg _ 0xF#4 _)

/-- 40_cycle R90, R92: the start of a cycle changes PC, the keypad sample and the outputs only. -/
theorem keepsExcept_entered (s : State) : KeepsExcept [.pc, .keys, .event, .info] s s.entered := by
  rw [State.entered_eq]
  simp [KeepsExcept]

/-! ### The arms of `exec` (40_cycle R94) -/

theorem exec_halt (s : State) : exec .halt s = .next (s.stop .haltZero) := rfl

theorem exec_ret_nil {s : State} (h : s.stack = []) : exec .ret s = .next (s.setEvent .stackUnderflow) := by
  simp only [exec, execRet, h]

theorem exec_ret_cons {s : State} {a : Word} {rest : List Word} (h : s.stack = a :: rest) :
    exec .ret s = .next ((s.setStack rest).setPc a) := by
  simp only [exec, execRet, h]

theorem exec_callNnn {s : State} {nnn : Addr12} (h : s.cfg.stackDepth ≠ some s.stack.length) :
    exec (.callNnn nnn) s = .next ((s.push s.pc).setPc (zext16 nnn)) := by
  simp [exec, execCallNnn, State.stackFull, h]

theorem exec_callNnn_full {s : State} {nnn : Addr12} (h : s.cfg.stackDepth = some s.stack.length) :
    exec (.callNnn nnn) s = .next (s.raiseRange .stackOverflow) := by
  simp [exec, execCallNnn, State.stackFull, h]

theorem exec_jpV0Nnn (nnn : Addr12) (s : State) :
    exec (.jpV0Nnn nnn) s = .next (s.setPc (zext16 nnn + zext16 (s.reg 0x0#4))) := rfl

theorem exec_seVxNn (x : Nibble) (nn : Byte) (s : State) :
    exec (.seVxNn x nn) s = .next (s.setPc (if s.reg x = nn then s.pc + 2#16 else s.pc)) := by
  simp [exec, execSeVxNn, State.skipIf_eq]

theorem exec_sneVxNn (x : Nibble) (nn : Byte) (s : State) :
    exec (.sneVxNn x nn) s = .next (s.setPc (if s.reg x ≠ nn then s.pc + 2#16 else s.pc)) := by
  simp [exec, execSneVxNn, State.skipIf_eq]

theorem exec_seVxVy (x y : Nibble) (s : State) :
    exec (.seVxVy x y) s = .next (s.setPc (if s.reg x = s.reg y then s.pc + 2#16 else s.pc)) := by
  simp [exec, execSeVxVy, State.skipIf_eq]

theorem exec_ldVxNn (x : Nibble) (nn : Byte) (s : State) : exec (.ldVxNn x nn) s = .next (s.setReg x nn) := rfl

theorem exec_ldVxVy (x y : Nibble) (s : State) : exec (.ldVxVy x y) s = .next (s.setReg x (s.reg y)) := rfl

theorem exec_orVxVy (x y : Nibble) (s : State) : exec (.orVxVy x y) s = .next (s.setReg x (s.reg x ||| s.reg y)) := rfl

theorem exec_andVxVy (x y : Nibble) (s : State) : exec (.andVxVy x y) s = .next (s.setReg x (s.reg x &&& s.reg y)) := rfl

theorem exec_xorVxVy (x y : Nibble) (s : State) : exec (.xorVxVy x y) s = .next (s.setReg x (s.reg x ^^^ s.reg y)) := rfl

theorem exec_addVxVy (x y : Nibble) (s : State) :
    exec (.addVxVy x y) s = .next (s.setRegThenFlag x (s.reg x + s.reg y) (carryFlag (s.reg x) (s.reg y))) := rfl

theorem exec_subVxVy (x y : Nibble) (s : State) :
    exec (.subVxVy x y) s = .next (s.setRegThenFlag x (s.reg x - s.reg y) (noBorrowFlag (s.reg x) (s.reg y))) := rfl

theorem exec_shrVx (x y : Nibble) (s : State) :
    exec (.shrVx x y) s = .next (s.setRegThenFlag x (s.reg x >>> 1) (lowBitFlag (s.reg x))) := rfl

theorem exec_subnVxVy (x y : Nibble) (s : State) :
    exec (.subnVxVy x y) s = .next (s.setRegThenFlag x (s.reg y - s.reg x) (noBorrowFlag (s.reg y) (s.reg x))) := rfl

theorem exec_shlVx (x y : Nibble) (s : State) :
    exec (.shlVx x y) s = .next (s.setRegThenFlag x (s.reg x <<< 1) (highBitFlag (s.reg x))) := rfl

theorem exec_ldINnn (nnn : Addr12) (s : State) : exec (.ldINnn nnn) s = .next (s.setI (zext16 nnn)) := rfl

theorem exec_rndVxNn (x : Nibble) (nn : Byte) (s : State) :
    exec (.rndVxNn x nn) s = .next (s.setReg x (s.rnd &&& nn)).nextRnd := rfl

theorem exec_ldVxDt (x : Nibble) (s : State) : exec (.ldVxDt x) s = .next (s.setReg x s.dt) := rfl

theorem exec_ldDtVx (x : Nibble) (s : State) : exec (.ldDtVx x) s = .next (s.setDt (s.reg x)) := rfl

theorem exec_ldStVx (x : Nibble) (s : State) : exec (.ldStVx x) s = .next (s.setSt (s.reg x)) := rfl

theorem exec_addIVx (x : Nibble) (s : State) : exec (.addIVx x) s = .next (s.setI (s.i + zext16 (s.reg x))) := rfl

theorem exec_ldFVx (x : Nibble) (s : State) : exec (.ldFVx x) s = .next (s.setI (zext16 (s.reg x) * 5#16)) := rfl

/-- 44_keypad_timers R160, R166. -/
theorem exec_skpVx {s : State} {x : Nibble} (h : ¬((s.reg x).toNat > 15 ∧ s.cfg.keyIndexPolicy = .fault)) :
    exec (.skpVx x) s =
      .next (s.setPc (if s.key.getLsbD ((s.reg x).toNat % 16) = true then s.pc + 2#16 else s.pc)) := by
  simp only [exec, execSkpVx, State.keyIndex_eq, if_neg h, State.skipIf_eq, State.keyDown]

/-- 44_keypad_timers R161, R166. -/
theorem exec_sknpVx {s : State} {x : Nibble} (h : ¬((s.reg x).toNat > 15 ∧ s.cfg.keyIndexPolicy = .fault)) :
    exec (.sknpVx x) s =
      .next (s.setPc (if s.key.getLsbD ((s.reg x).toNat % 16) = false then s.pc + 2#16 else s.pc)) := by
  simp only [exec, execSknpVx, State.keyIndex_eq, if_neg h, State.skipIf_eq, State.keyDown, Bool.not_eq_true']

theorem exec_skpVx_bad {s : State} {x : Nibble} (h : (s.reg x).toNat > 15 ∧ s.cfg.keyIndexPolicy = .fault) :
    exec (.skpVx x) s = .next (s.raiseRange (.keyIndex (s.reg x))) := by
  simp only [exec, execSkpVx, State.keyIndex_eq, if_pos h]

theorem exec_sknpVx_bad {s : State} {x : Nibble} (h : (s.reg x).toNat > 15 ∧ s.cfg.keyIndexPolicy = .fault) :
    exec (.sknpVx x) s = .next (s.raiseRange (.keyIndex (s.reg x))) := by
  simp only [exec, execSknpVx, State.keyIndex_eq, if_pos h]

theorem exec_ldVxK_some {s : State} {k : Nat} (x : Nibble) (h : s.firstKey = some k) :
    exec (.ldVxK x) s = .next (s.setReg x (BitVec.ofNat 8 k)) := by
  simp only [exec, execLdVxK, h]

theorem exec_ldVxK_none {s : State} (x : Nibble) (h : s.firstKey = none) :
    exec (.ldVxK x) s = .next ((s.setPc (s.pc - 2#16)).setEvent .keyWait) := by
  simp only [exec, execLdVxK, h]

theorem exec_drwVxVyN {s : State} {n : Nibble} (x y : Nibble) (h : n.toNat = 0 ∨ s.i.toNat + n.toNat - 1 ≤ 4095) :
    exec (.drwVxVyN x y n) s = .next (s.draw x y n) :=
  State.withBlock_ok _ _ _ (by omega)

theorem exec_ldBVx {s : State} (x : Nibble) (h : s.i.toNat + 2 ≤ 4095) :
    exec (.ldBVx x) s = .next (s.store s.i.toNat (bcdDigits (s.reg x))) :=
  State.withBlock_ok _ _ _ (by omega)

theorem exec_ldMemVx {s : State} {x : Nibble} (h : s.i.toNat + x.toNat ≤ 4095) :
    exec (.ldMemVx x) s = .next (s.store s.i.toNat (s.firstRegs (x.toNat + 1))) :=
  State.withBlock_ok _ _ _ (by omega)

theorem exec_ldVxMem {s : State} {x : Nibble} (h : s.i.toNat + x.toNat ≤ 4095) :
    exec (.ldVxMem x) s = .next (s.setRegs 0 (s.bytesAt s.i.toNat (x.toNat + 1))) :=
  State.withBlock_ok _ _ _ (by omega)

/-- 60_exceptions R184, R190: in the cases of the table a handler raises FATAL_RANGE with the table's info and does nothing
else. -/
theorem exec_of_rangeFault {i : Instr} {s : State} {d : RangeInfo} (h : rangeFault i s = some d) :
    exec i s = .next (s.raiseRange d) := by
  cases i <;> simp only [rangeFault, reduceCtorEq, Option.ite_none_right_eq_some, Option.some.injEq] at h <;>
    obtain ⟨hbad, rfl⟩ := h
  case drwVxVyN x y n => exact State.withBlock_bad _ _ _ (by omega)
  case ldBVx x => exact State.withBlock_bad _ _ _ (by omega)
  case ldMemVx x => exact State.withBlock_bad _ _ _ (by omega)
  case ldVxMem x => exact State.withBlock_bad _ _ _ (by omega)
  case skpVx x => exact exec_skpVx_bad hbad
  case sknpVx x => exact exec_sknpVx_bad hbad
  case callNnn nnn => exact exec_callNnn_full hbad

/-- The parts of the state the meaning of `i` may write where it raises no FATAL_RANGE: the destinations of 10_state R20. -/
def writes (i : Instr) (s : State) : List Part :=
  match i with
  | .halt => [.run]
  | .cls => [.fb]
  | .ret => [.pc, .stack, .event]
  | .callNnn _ => [.pc, .stack]
  | .jpNnn _ | .jpV0Nnn _ | .seVxNn _ _ | .sneVxNn _ _ | .seVxVy _ _ | .sneVxVy _ _ | .skpVx _ | .sknpVx _ => [.pc]
  | .ldVxNn x _ | .addVxNn x _ | .ldVxVy x _ | .orVxVy x _ | .andVxVy x _ | .xorVxVy x _ | .ldVxDt x => [.reg x]
  | .addVxVy x _ | .subVxVy x _ | .shrVx x _ | .subnVxVy x _ | .shlVx x _ => [.reg x, .reg 0xF#4]
  | .rndVxNn x _ => [.reg x, .rnd]
  | .ldVxK x => [.reg x, .pc, .event]
  | .ldINnn _ | .addIVx _ | .ldFVx _ => [.i]
  | .drwVxVyN _ _ _ => [.fb, .reg 0xF#4]
  | .ldDtVx _ => [.dt]
  | .ldStVx _ => [.st]
  | .ldBVx _ => blockParts s.i.toNat 3
  | .ldMemVx x => blockParts s.i.toNat (x.toNat + 1)
  | .ldVxMem x => regParts (x.toNat + 1)

/-- The frame of every instruction: outside its own parts nothing changes, and memory stays in canonical form. -/
theorem exec_keeps {i : Instr} {s : State} (h : rangeFault i s = none) :
    ∃ t, exec i s = .next t ∧ KeepsExcept (writes i s) s t ∧ (s.mem.wf = true → t.mem.wf = true) := by
  cases i with
  | halt => exact ⟨_, rfl, keepsExcept_stop _ _, id⟩
  | cls => exact ⟨_, rfl, keepsExcept_setFb _ _, id⟩
  | ret =>
    cases hs : s.stack with
    | nil => exact ⟨_, exec_ret_nil hs, (keepsExcept_setEvent _ _).mono (by simp [writes]), id⟩
    | cons a rest =>
      exact ⟨_, exec_ret_cons hs, ((keepsExcept_setStack s rest).trans (keepsExcept_setPc _ a)).mono (by simp [writes]), id⟩
  | callNnn nnn =>
    have hroom : s.cfg.stackDepth ≠ some s.stack.length := by simpa [rangeFault] using h
    exact ⟨_, exec_callNnn hroom, ((keepsExcept_push s s.pc).trans (keepsExcept_setPc _ _)).mono (by simp [writes]), id⟩
  | seVxNn x nn => exact ⟨_, exec_seVxNn x nn s, keepsExcept_setPc _ _, id⟩
  | sneVxNn x nn => exact ⟨_, exec_sneVxNn x nn s, keepsExcept_setPc _ _, id⟩
  | seVxVy x y => exact ⟨_, exec_seVxVy x y s, keepsExcept_setPc _ _, id⟩
  | sneVxVy x y => exact ⟨_, exec_sneVxVy x y s, keepsExcept_setPc _ _, id⟩
  | skpVx x => exact ⟨_, exec_skpVx (by simpa [rangeFault] using h), keepsExcept_setPc _ _, id⟩
  | sknpVx x => exact ⟨_, exec_sknpVx (by simpa [rangeFault] using h), keepsExcept_setPc _ _, id⟩
  | jpNnn | jpV0Nnn => exact ⟨_, rfl, keepsExcept_setPc _ _, id⟩
  | ldVxNn | addVxNn | ldVxVy | orVxVy | andVxVy | xorVxVy | ldVxDt => exact ⟨_, rfl, keepsExcept_setReg _ _ _, id⟩
  | addVxVy | subVxVy | shrVx | subnVxVy | shlVx => exact ⟨_, rfl, keepsExcept_setRegThenFlag _ _ _ _, id⟩
  | rndVxNn => exact ⟨_, rfl, (keepsExcept_setReg _ _ _).trans (keepsExcept_nextRnd _), id⟩
  | ldVxK x =>
    cases hk : s.firstKey with
    | some k => exact ⟨_, exec_ldVxK_some x hk, (keepsExcept_setReg _ _ _).mono (by simp [writes]), id⟩
    | none =>
      exact ⟨_, exec_ldVxK_none x hk, ((keepsExcept_setPc s _).trans (keepsExcept_setEvent _ _)).mono (by simp [writes]), id⟩
  | ldINnn | addIVx | ldFVx => exact ⟨_, rfl, keepsExcept_setI _ _, id⟩
  | drwVxVyN x y n =>
    have hrange : n.toNat = 0 ∨ s.i.toNat + n.toNat - 1 ≤ 4095 := by simp [rangeFault] at h; omega
    exact ⟨_, exec_drwVxVyN x y hrange, keepsExcept_draw _ _ _ _, id⟩
  | ldDtVx => exact ⟨_, rfl, keepsExcept_setDt _ _, id⟩
  | ldStVx => exact ⟨_, rfl, keepsExcept_setSt _ _, id⟩
  | ldBVx x =>
    have hrange : s.i.toNat + 2 ≤ 4095 := by simpa [rangeFault] using h
    exact ⟨_, exec_ldBVx x hrange, keepsExcept_store s s.i.toNat (bcdDigits (s.reg x)),
      fun hwf => Memory.wf_writeList hwf (by simp; omega)⟩
  | ldMemVx x =>
    have hrange : s.i.toNat + x.toNat ≤ 4095 := by simpa [rangeFault] using h
    refine ⟨_, exec_ldMemVx hrange, ?_, fun hwf => Memory.wf_writeList hwf (by simp; omega)⟩
    simpa [writes] using keepsExcept_store s s.i.toNat (s.firstRegs (x.toNat + 1))
  | ldVxMem x =>
    have hrange : s.i.toNat + x.toNat ≤ 4095 := by simpa [rangeFault] using h
    have hlen : (s.bytesAt s.i.toNat (x.toNat + 1)).length ≤ 16 := by simpa using x.isLt
    refine ⟨_, exec_ldVxMem hrange, ?_, by rw [State.setRegs_eq]; exact id⟩
    simpa [writes] using keepsExcept_setRegs s _ hlen

/-- Everything a meaning can do: raise FATAL_RANGE and nothing else, or write its own parts only. -/
theorem exec_cases {i : Instr} {s t : State} (h : exec i s = .next t) :
    (∃ d, rangeFault i s = some d ∧ t = s.raiseRange d) ∨
    (rangeFault i s = none ∧ KeepsExcept (writes i s) s t ∧ (s.mem.wf = true → t.mem.wf = true)) := by
  cases hd : rangeFault i s with
  | some d =>
    rw [exec_of_rangeFault hd] at h
    cases h
    exact .inl ⟨d, rfl, rfl⟩
  | none =>
    obtain ⟨u, hu, hkeep⟩ := exec_keeps hd
    rw [hu] at h
    cases h
    exact .inr ⟨rfl, hkeep⟩

/-- 30_encoding R81: every meaning answers a next state. -/
theorem exec_next (i : Instr) (s : State) : ∃ t, exec i s = .next t := by
  cases hd : rangeFault i s with
  | some d => exact ⟨_, exec_of_rangeFault hd⟩
  | none => exact (exec_keeps hd).imp fun _ h => h.1

/-- The frame of a meaning, whether it raises FATAL_RANGE or not. -/
theorem exec_keepsExcept {i : Instr} {s t : State} (h : exec i s = .next t) :
    KeepsExcept (.run :: .info :: writes i s) s t := by
  obtain ⟨d, -, rfl⟩ | ⟨-, hk, -⟩ := exec_cases h
  · exact (keepsExcept_raiseRange s d).mono (by simp)
  · exact hk.mono fun _ hp => .tail _ (.tail _ hp)

/-! ### The flag (10_state R22) -/

theorem flagByte_zero_or_one (c : Bool) : flagByte c = 0x00#8 ∨ flagByte c = 0x01#8 := by
  cases c
  · exact .inl rfl
  · exact .inr rfl

/-- Each flag writer that completes leaves a flag in VF, whatever its destination. -/
theorem exists_flagByte_of_exec {i : Instr} {s t : State} (hi : isFlagWriter i = true) (hnone : rangeFault i s = none)
    (h : exec i s = .next t) : ∃ c, t.reg 0xF#4 = flagByte c := by
  cases i with
  | addVxVy | subVxVy | shrVx | subnVxVy | shlVx =>
    cases h
    exact ⟨_, by rw [State.reg_setRegThenFlag, if_pos rfl]; rfl⟩
  | drwVxVyN x y n =>
    rw [exec_drwVxVyN x y (by simp [rangeFault] at hnone; omega)] at h
    cases h
    exact ⟨_, by rw [State.draw, State.reg_setReg, if_pos rfl]⟩
  | _ => cases hi

/-! ### Which instruction writes a part, read off the table `writes` -/

section writers
variable {i : Instr} {s : State}

theorem reg_mem_writes {r : Nibble} (h : Part.reg r ∈ writes i s) :
    isDestination i r = true ∨ (isFlagWriter i = true ∧ r = 0xF#4) := by
  cases i with
  | ldVxMem x =>
    have hr : r.toNat < x.toNat + 1 := (reg_mem_regParts _ r).1 h
    exact .inl (decide_eq_true (Nat.lt_succ_iff.1 hr))
  | addVxVy | subVxVy | shrVx | subnVxVy | shlVx =>
    simpa [writes, isDestination, isFlagWriter, eq_comm (a := r)] using h
  | _ => simp_all [writes, isDestination, isFlagWriter, blockParts]

theorem i_mem_writes (h : Part.i ∈ writes i s) : (∃ nnn, i = .ldINnn nnn) ∨ (∃ x, i = .addIVx x) ∨ ∃ x, i = .ldFVx x := by
  cases i <;> simp_all [writes, blockParts, regParts]

theorem pc_mem_writes (h : Part.pc ∈ writes i s) : movesPc i = true := by
  cases i <;> simp_all [writes, blockParts, regParts, movesPc]

theorem stack_mem_writes (h : Part.stack ∈ writes i s) : i = .ret ∨ ∃ nnn, i = .callNnn nnn := by
  cases i <;> simp_all [writes, blockParts, regParts]

theorem dt_mem_writes (h : Part.dt ∈ writes i s) : ∃ x, i = .ldDtVx x := by
  cases i <;> simp_all [writes, blockParts, regParts]

theorem st_mem_writes (h : Part.st ∈ writes i s) : ∃ x, i = .ldStVx x := by
  cases i <;> simp_all [writes, blockParts, regParts]

theorem byte_mem_writes {a : Nat} (h : Part.byte a ∈ writes i s) : (∃ x, i = .ldBVx x) ∨ ∃ x, i = .ldMemVx x := by
  cases i <;> simp_all [writes, regParts]

theorem fb_mem_writes (h : Part.fb ∈ writes i s) : i = .cls ∨ ∃ x y n, i = .drwVxVyN x y n := by
  cases i <;> simp_all [writes, blockParts, regParts]

theorem keys_not_mem_writes : Part.keys ∉ writes i s := by
  cases i <;> simp [writes, blockParts, regParts]

theorem run_mem_writes (h : Part.run ∈ writes i s) : i = .halt := by
  cases i <;> simp_all [writes, blockParts, regParts]

theorem event_mem_writes (h : Part.event ∈ writes i s) : i = .ret ∨ ∃ x, i = .ldVxK x := by
  cases i <;> simp_all [writes, blockParts, regParts]

theorem info_not_mem_writes : Part.info ∉ writes i s := by
  cases i <;> simp [writes, blockParts, regParts]

theorem rnd_mem_writes (h : Part.rnd ∈ writes i s) : ∃ x nn, i = .rndVxNn x nn := by
  cases i <;> simp_all [writes, blockParts, regParts]

end writers

end Sys2Proof.Machine

namespace Sys2Proof.Proofs

open Machine

/-- Settles O16: the table's cases by `exec_of_rangeFault`, every other case by the frame `exec_keeps`. -/
theorem rangeFaultsAreTheTable : Obligations.RangeFaultsAreTheTable := by
  intro i s
  cases hd : rangeFault i s with
  | some d =>
    refine ⟨_, exec_of_rangeFault hd, fun d' hd' => ?_, nofun⟩
    cases hd'
    exact ⟨rfl, rfl, keepsExcept_raiseRange s d⟩
  | none =>
    obtain ⟨t, ht, hk, -⟩ := exec_keeps hd
    exact ⟨t, ht, nofun, fun _ => ⟨hk.info_eq info_not_mem_writes, fun hne => hk.run_eq fun hm => hne (run_mem_writes hm)⟩⟩

/-- Settles O21: a part that changed is one the meaning writes (`exec_cases`), and the `_mem_writes` lemmas name its writers. -/
theorem eachPartHasItsWriters : Obligations.EachPartHasItsWriters := by
  intro i s t h
  obtain ⟨d, hd, rfl⟩ | ⟨-, ⟨hreg, hi, hpc, hstack, hdt, hst, hbyte, hfb, hkeys, hrun, hevent, hinfo, hrnd, hpe, hcfg⟩, -⟩ :=
    exec_cases h
  · simp [hd]
  · obtain ⟨hkey, hfeed⟩ := hkeys keys_not_mem_writes
    exact ⟨fun r hne => reg_mem_writes (not_imp_comm.1 (hreg r) hne), fun hne => i_mem_writes (not_imp_comm.1 hi hne),
      fun hne => pc_mem_writes (not_imp_comm.1 hpc hne), fun hne => stack_mem_writes (not_imp_comm.1 hstack hne),
      fun hne => dt_mem_writes (not_imp_comm.1 hdt hne), fun hne => st_mem_writes (not_imp_comm.1 hst hne),
      fun ⟨a, hne⟩ => byte_mem_writes (not_imp_comm.1 (hbyte a) hne), fun hne => fb_mem_writes (not_imp_comm.1 hfb hne),
      hkey, hfeed, hpe, hcfg, fun hne => .inl (run_mem_writes (not_imp_comm.1 hrun hne)),
      fun hne => absurd (hinfo info_not_mem_writes) hne, fun hne => event_mem_writes (not_imp_comm.1 hevent hne),
      fun hne => rnd_mem_writes (not_imp_comm.1 hrnd fun ⟨hf, hd⟩ => hne.elim (absurd hd) (absurd hf))⟩

/-- Settles O22: the writers are a case of O21, the value is a flag by `exists_flagByte_of_exec`. -/
theorem flagHasItsWriters : Obligations.FlagHasItsWriters := by
  intro i s t h
  refine ⟨fun hne => ?_, fun hi hnone => ?_⟩
  · obtain ⟨hreg, -⟩ := eachPartHasItsWriters i s t h
    obtain hdest | ⟨hflag, -⟩ := hreg 0xF#4 hne
    · exact .inr hdest
    · exact .inl hflag
  · obtain ⟨c, hc⟩ := exists_flagByte_of_exec hi hnone h
    rw [hc]
    exact flagByte_zero_or_one c

end Sys2Proof.Proofs

/-! SUPPORT. The cycle (40_cycle): what its parts keep, the PC it ends with, the invariant, and the obligations O7 to O15, O17,
O18 and O20. -/

namespace Sys2Proof.Machine

/-! ### What the parts of a cycle keep -/

@[simp] theorem State.entered_pc (s : State) : s.entered.pc = s.pc + 2#16 := rfl
@[simp] theorem State.entered_stack (s : State) : s.entered.stack = s.stack := by simp [State.entered_eq]
@[simp] theorem State.entered_key (s : State) : s.entered.key = s.keyFeed.headD s.key := by simp [State.entered_eq]
@[simp] theorem State.entered_keyFeed (s : State) : s.entered.keyFeed = s.keyFeed.tail := by simp [State.entered_eq]
@[simp] theorem State.entered_mem (s : State) : s.entered.mem = s.mem := by simp [State.entered_eq]
@[simp] theorem State.entered_event (s : State) : s.entered.event = .none := by simp [State.entered_eq]
@[simp] theorem State.entered_info (s : State) : s.entered.info = none := by simp [State.entered_eq]
@[simp] theorem State.entered_cfg (s : State) : s.entered.cfg = s.cfg := by simp [State.entered_eq]
@[simp] theorem State.entered_reg (s : State) (x : Nibble) : s.entered.reg x = s.reg x := by simp [State.entered_eq]

theorem keepsExcept_clearOutputs (s : State) : KeepsExcept [.event, .info] s s.clearOutputs := by simp [KeepsExcept]

theorem keepsExcept_beginCycle (s : State) : KeepsExcept [.keys, .event, .info] s s.beginCycle := by
  rw [State.beginCycle_eq]
  simp [KeepsExcept]

theorem keepsExcept_endCycle (s : State) : KeepsExcept [.dt, .st] s s.endCycle := by
  rw [State.endCycle]
  split
  · exact keepsExcept_tickTimers s
  · simp [KeepsExcept]

theorem keepsExcept_unknownWord (s : State) : KeepsExcept [.run, .event, .dt, .st] s s.unknownWord := by
  cases hp : s.cfg.unknownPolicy with
  | skip =>
    rw [State.unknownWord_skip s hp]
    exact ((keepsExcept_setEvent s _).trans (keepsExcept_tickTimers _)).mono (by simp)
  | halt =>
    rw [State.unknownWord_halt s hp]
    exact (keepsExcept_stop s _).mono (by simp)

/-! ### Cycles that execute an instruction -/

/-- A cycle that executes `i` and stays running: the handler's state, ticked (40_cycle R98). -/
theorem step_of_executes_running {s u : State} {i : Instr} (h : s.executes i) (hx : exec i s.entered = .next u)
    (hrun : u.run = .running) : step s = .next u.tickTimers := by
  rw [step_of_executes h, hx, endCycle, State.endCycle_running _ hrun]

/-- A cycle that executes `i` and ends in a status: the handler's state, no tick (40_cycle R98). -/
theorem step_of_executes_stopped {s u : State} {i : Instr} (h : s.executes i) (hx : exec i s.entered = .next u)
    (hrun : u.run ≠ .running) : step s = .next u := by
  rw [step_of_executes h, hx, endCycle, State.endCycle_stopped _ hrun]

/-- The handler's state of a cycle that executed `i`. -/
theorem exec_of_step {s t : State} {i : Instr} (h : s.executes i) (hstep : step s = .next t) :
    ∃ u, exec i s.entered = .next u ∧ t = u.endCycle := by
  obtain ⟨u, hu⟩ := exec_next i s.entered
  rw [step_of_executes h, hu] at hstep
  cases hstep
  exact ⟨u, hu, rfl⟩

/-- Everything the next state of a step can be. -/
theorem step_next_cases {s t : State} (hstep : step s = .next t) :
    t = s.clearOutputs ∨ t = s.beginCycle.stop .haltEnd ∨ (∃ d, t = s.beginCycle.raiseRange d) ∨
    (s.fetches ∧ t = s.entered.unknownWord) ∨
    (s.fetches ∧ ∃ i u, exec i s.entered = .next u ∧ t = u.endCycle) := by
  obtain ⟨-, h⟩ | ⟨-, -, h⟩ | ⟨-, -, -, h⟩ | ⟨hrun, hlt, hpc, -, h⟩ | ⟨hrun, hlt, hpc, i, -, h⟩ := step_cases s
  case inr.inr.inr.inr =>
    obtain ⟨u, hu⟩ := exec_next i s.entered
    rw [h, hu] at hstep
    cases hstep
    exact .inr (.inr (.inr (.inr ⟨⟨hrun, hlt, hpc⟩, i, u, hu, rfl⟩)))
  all_goals
    rw [h] at hstep
    cases hstep
  · exact .inl rfl
  · exact .inr (.inl rfl)
  · exact .inr (.inr (.inl ⟨_, rfl⟩))
  · exact .inr (.inr (.inr (.inl ⟨⟨hrun, hlt, hpc⟩, rfl⟩)))

/-! ### PC (10_state R25) -/

/-- PC never wraps when a handler is entered: the fetch was below 4095 (40_cycle R91, R92). -/
theorem State.toNat_entered_pc {s : State} (h : s.fetches) : s.entered.pc.toNat = s.pc.toNat + 2 := by
  obtain ⟨-, -, hpc⟩ := h
  rw [State.entered_pc, BitVec.toNat_add]
  simp
  omega

theorem State.toNat_skip {s : State} (h : s.fetches) (c : Prop) [Decidable c] :
    (if c then s.entered.pc + 2#16 else s.entered.pc).toNat = if c then s.pc.toNat + 4 else s.pc.toNat + 2 := by
  have hpc := State.toNat_entered_pc h
  obtain ⟨-, -, hlt⟩ := h
  split
  · rw [BitVec.toNat_add, hpc]
    simp
    omega
  · exact hpc

/-- 30_encoding R73: a byte keeps its number when widened to 16 bits. -/
theorem toNat_zext16_byte (b : Byte) : (zext16 b).toNat = b.toNat :=
  BitVec.toNat_setWidth_of_le (by decide)

/-- 41_control_flow R113: the sum of an address and a byte does not wrap. -/
theorem toNat_zext16_add (nnn : Addr12) (b : Byte) : (zext16 nnn + zext16 b).toNat = nnn.toNat + b.toNat := by
  have := nnn.isLt
  have := b.isLt
  rw [BitVec.toNat_add, toNat_zext16_addr12, toNat_zext16_byte]
  omega

theorem pcAfter_of_not_movesPc {i : Instr} (h : movesPc i = false) (s : State) : pcAfter i s = s.pc.toNat + 2 := by
  cases i with
  | ret | jpNnn | callNnn | jpV0Nnn | seVxNn | sneVxNn | seVxVy | sneVxVy | skpVx | sknpVx | ldVxK => cases h
  | _ => rfl

theorem pc_of_exec_setPc {i : Instr} {s t : State} {a : Word} (heq : exec i s = .next (s.setPc a))
    (hx : exec i s = .next t) : t.pc = a := by
  rw [heq] at hx
  cases hx
  rfl

/-- The table of 10_state R25, for the handlers that move PC and for those that do not. -/
theorem pc_of_executes {s t : State} {i : Instr} (h : s.fetches) (hnone : rangeFault i s.entered = none)
    (hx : exec i s.entered = .next t) : t.pc.toNat = pcAfter i s := by
  by_cases hm : movesPc i = true
  case neg =>
    obtain ⟨d, hd, -⟩ | ⟨-, hk, -⟩ := exec_cases hx
    · rw [hd] at hnone
      cases hnone
    · rw [hk.pc_eq fun hmem => hm (pc_mem_writes hmem), State.toNat_entered_pc h,
        pcAfter_of_not_movesPc (Bool.not_eq_true _ ▸ hm)]
  cases i with
  | ret =>
    cases hs : s.stack with
    | nil =>
      rw [exec_ret_nil (by simpa using hs)] at hx
      cases hx
      simpa [pcAfter, hs] using State.toNat_entered_pc h
    | cons a rest =>
      rw [exec_ret_cons (by simpa using hs)] at hx
      cases hx
      simp [pcAfter, hs]
  | jpNnn nnn => cases hx; exact toNat_zext16_addr12 nnn
  | callNnn nnn =>
    rw [exec_callNnn (by simpa [rangeFault] using hnone)] at hx
    cases hx
    exact toNat_zext16_addr12 nnn
  | jpV0Nnn nnn =>
    cases hx
    simpa [pcAfter] using toNat_zext16_add nnn (s.reg 0x0#4)
  | seVxNn x nn =>
    rw [pc_of_exec_setPc (exec_seVxNn ..) hx, State.toNat_skip h]
    simp [pcAfter]
  | sneVxNn x nn =>
    rw [pc_of_exec_setPc (exec_sneVxNn ..) hx, State.toNat_skip h]
    simp [pcAfter]
  | seVxVy x y =>
    rw [pc_of_exec_setPc (exec_seVxVy ..) hx, State.toNat_skip h]
    simp [pcAfter]
  | sneVxVy x y =>
    rw [pc_of_exec_setPc (exec_sneVxVy ..) hx, State.toNat_skip h]
    simp [pcAfter]
  | skpVx x =>
    rw [pc_of_exec_setPc (exec_skpVx (by simpa [rangeFault] using hnone)) hx, State.toNat_skip h]
    simp [pcAfter]
  | sknpVx x =>
    rw [pc_of_exec_setPc (exec_sknpVx (by simpa [rangeFault] using hnone)) hx, State.toNat_skip h]
    simp [pcAfter]
  | ldVxK x =>
    have hkey := State.firstKey_eq_none s.entered
    rw [State.entered_key] at hkey
    cases hf : s.entered.firstKey with
    | none =>
      rw [exec_ldVxK_none x hf] at hx
      cases hx
      have hz := hkey.1 hf
      simp only [pcAfter, if_pos hz, State.setEvent_pc, State.setPc_pc, State.entered_pc, BitVec.add_sub_cancel]
    | some k =>
      rw [exec_ldVxK_some x hf] at hx
      cases hx
      have hz : s.keyFeed.headD s.key ≠ 0x0000#16 := fun hz => by simp [hkey.2 hz] at hf
      simp only [pcAfter, if_neg hz, State.setReg_pc, State.toNat_entered_pc h]
  | _ => cases hm

/-! ### The invariant -/

/-- 10_state R26: BNNN gives the highest PC, 0xFFF + 0xFF. -/
theorem pcAfter_le {i : Instr} {s : State} (hinv : s.Inv) (h : s.fetches) : pcAfter i s ≤ 0x10FE := by
  obtain ⟨-, -, -, -, hret, -⟩ := hinv
  obtain ⟨-, -, hpc⟩ := h
  by_cases hm : movesPc i = true
  case neg => rw [pcAfter_of_not_movesPc (Bool.not_eq_true _ ▸ hm)]; omega
  cases i with
  | ret =>
    cases hs : s.stack with
    | nil => simp only [pcAfter, hs]; omega
    | cons a rest =>
      have := hret a (by simp [hs])
      simp only [pcAfter, hs]
      omega
  | jpNnn nnn | callNnn nnn => have := nnn.isLt; simp only [pcAfter]; omega
  | jpV0Nnn nnn => have := nnn.isLt; have := (s.reg 0x0#4).isLt; simp only [pcAfter]; omega
  | seVxNn | sneVxNn | seVxVy | sneVxVy | skpVx | sknpVx | ldVxK => simp only [pcAfter]; split <;> omega
  | _ => cases hm

/-- What a meaning does to the call stack (10_state R27): nothing, pop, or push PC where there is room. -/
theorem exec_stack_cases {i : Instr} {s t : State} (h : exec i s = .next t) :
    t.stack = s.stack ∨ (∃ a, s.stack = a :: t.stack) ∨
    (t.stack = s.pc :: s.stack ∧ s.cfg.stackDepth ≠ some s.stack.length) := by
  obtain ⟨d, -, rfl⟩ | ⟨hnone, hk, -⟩ := exec_cases h
  · exact .inl rfl
  by_cases hm : Part.stack ∈ writes i s
  case neg => exact .inl (hk.stack_eq hm)
  obtain rfl | ⟨nnn, rfl⟩ := stack_mem_writes hm
  · cases hs : s.stack with
    | nil =>
      rw [exec_ret_nil hs] at h
      cases h
      exact .inl hs
    | cons a rest =>
      rw [exec_ret_cons hs] at h
      cases h
      exact .inr (.inl ⟨a, rfl⟩)
  · have hroom : s.cfg.stackDepth ≠ some s.stack.length := by simpa [rangeFault] using hnone
    rw [exec_callNnn hroom] at h
    cases h
    exact .inr (.inr ⟨rfl, hroom⟩)

theorem State.Inv.endCycle {s : State} (h : s.Inv) : s.endCycle.Inv := by
  rw [State.endCycle]
  split
  · exact h
  · exact h

theorem State.Inv.unknownWord {s : State} (h : s.Inv) : s.unknownWord.Inv := by
  rw [State.unknownWord]
  split
  · exact h
  · exact h

theorem State.Inv.beginCycle {s : State} (h : s.Inv) : s.beginCycle.Inv := by
  rw [State.beginCycle_eq]
  exact h

theorem State.Inv.entered {s : State} (h : s.Inv) (hf : s.fetches) : s.entered.Inv := by
  have hpc := State.toNat_entered_pc hf
  obtain ⟨-, -, hlt⟩ := hf
  obtain ⟨hmem, hlo, hhi, -, hrest⟩ := h
  refine ⟨?_, ?_, ?_, by omega, ?_⟩ <;> simpa

/-- The handler of a cycle keeps the invariant. -/
theorem State.Inv.exec {s t : State} {i : Instr} (h : s.Inv) (hf : s.fetches) (hx : exec i s.entered = .next t) : t.Inv := by
  obtain ⟨d, -, rfl⟩ | ⟨hnone, hk, hwf⟩ := exec_cases hx
  · exact h.entered hf
  have hpc := pcAfter_le (i := i) h hf
  rw [← pc_of_executes hf hnone hx] at hpc
  have hpush := State.toNat_entered_pc hf
  obtain ⟨-, -, hlt⟩ := hf
  obtain ⟨hmem, hlo, hhi, -, hret, hdepth⟩ := h
  refine ⟨hwf (by simpa), by simpa [hk.progEnd_eq], by simpa [hk.progEnd_eq], hpc, ?_⟩
  rw [hk.cfg_eq, State.entered_cfg]
  have hstack := exec_stack_cases hx
  rw [State.entered_stack, State.entered_cfg] at hstack
  obtain hsame | ⟨a, hpop⟩ | ⟨hcall, hroom⟩ := hstack
  · rw [hsame]
    exact ⟨hret, hdepth⟩
  · rw [hpop] at hret hdepth
    exact ⟨fun b hb => hret b (.tail _ hb), fun d hd => Nat.le_of_succ_le (hdepth d hd)⟩
  · rw [hcall]
    refine ⟨?_, fun d hd => ?_⟩
    · rintro b (_ | ⟨_, hb⟩)
      · omega
      · exact hret b hb
    · have hle := hdepth d hd
      have hne : d ≠ s.stack.length := fun he => hroom (he ▸ hd)
      rw [List.length_cons]
      omega

end Sys2Proof.Machine

namespace Sys2Proof.Proofs

open Machine

/-- Settles O7: the entered state by its field lemmas, the end of the cycle by whether the handler's state runs. -/
theorem stepRunsTheDecodedInstruction : Obligations.StepRunsTheDecodedInstruction := by
  intro s i h
  refine ⟨State.entered_pc s, State.entered_key s, State.entered_keyFeed s, State.entered_event s, State.entered_info s,
    keepsExcept_entered s, step_of_executes h, fun t ht => ?_⟩
  by_cases hrun : t.run = .running
  · exact ⟨_, step_of_executes_running h ht hrun,
      fun _ => ⟨toNat_tickDown t.dt, toNat_tickDown t.st, keepsExcept_tickTimers t⟩, fun hne => absurd hrun hne⟩
  · exact ⟨_, step_of_executes_stopped h ht hrun, fun he => absurd he hrun, fun _ => rfl⟩

/-- Settles O8: in the one case of `step_cases` that calls a handler, `exec_next`. -/
theorem stepAlwaysAnswersANextState : Obligations.StepAlwaysAnswersANextState := by
  intro s
  obtain ⟨-, h⟩ | ⟨-, -, h⟩ | ⟨-, -, -, h⟩ | ⟨-, -, -, -, h⟩ | ⟨-, -, -, i, -, h⟩ := step_cases s
  iterate 4 exact ⟨_, h⟩
  obtain ⟨t, ht⟩ := exec_next i s.entered
  rw [ht] at h
  exact ⟨_, h⟩

/-- Settles O9: such a tick clears the outputs and nothing else. -/
theorem machineNotRunningDoesNothing : Obligations.MachineNotRunningDoesNothing := by
  intro s hrun
  have hstep : step s = .next s.clearOutputs := if_pos hrun
  exact ⟨_, hstep, rfl, rfl, keepsExcept_clearOutputs s⟩

/-- Settles O10: `step_of_progEnd_le`. -/
theorem fetchAtProgEndHalts : Obligations.FetchAtProgEndHalts := by
  intro s hrun hpc
  refine ⟨_, step_of_progEnd_le hrun hpc, rfl, ?_, ?_,
    ((keepsExcept_beginCycle s).trans (keepsExcept_stop _ _)).mono (by simp)⟩
  · simp [State.beginCycle_eq]
  · simp [State.beginCycle_eq]

/-- Settles O11: of the five ways of `step_cases` only the range check is left. -/
theorem fetchAcrossTheTopIsFatal : Obligations.FetchAcrossTheTopIsFatal := by
  intro s hrun hpe hlt htop
  obtain ⟨hne, -⟩ | ⟨-, hge, -⟩ | ⟨-, -, -, h⟩ | ⟨-, -, hlow, -⟩ | ⟨-, -, hlow, -⟩ := step_cases s
  · exact absurd hrun hne
  · omega
  · rw [htop] at h
    refine ⟨_, h, rfl, rfl, ?_, ((keepsExcept_beginCycle s).trans (keepsExcept_raiseRange _ _)).mono (by simp)⟩
    simp [State.beginCycle_eq]
  · omega
  · omega

/-- Settles O12: the cycle executes `halt` and ends in a status, so it does not tick. -/
theorem haltWordEndsTheRun : Obligations.HaltWordEndsTheRun := by
  refine ⟨fun s => ⟨_, exec_halt s, rfl, keepsExcept_stop s _⟩, fun s hf hw => ?_⟩
  have hex : s.executes .halt := ⟨hf, by rw [hw]; rfl⟩
  exact ⟨_, step_of_executes_stopped hex (exec_halt _) nofun, rfl, State.toNat_entered_pc hf, State.entered_event s,
    ((keepsExcept_entered s).trans (keepsExcept_stop _ _)).mono (by simp)⟩

/-- Settles O13: `step_of_unknown`, by the policy. -/
theorem unknownWordFollowsThePolicy : Obligations.UnknownWordFollowsThePolicy := by
  intro s hf hd
  have hstep := step_of_unknown hf hd
  have hpc := State.toNat_entered_pc hf
  have hkeep := keepsExcept_entered s
  have hrun : s.run = .running := by
    obtain ⟨hrun, -⟩ := hf
    exact hrun
  cases hp : s.cfg.unknownPolicy with
  | skip =>
    rw [State.unknownWord_skip _ (by simpa using hp)] at hstep
    refine ⟨_, hstep, hpc, fun _ => ⟨by simpa using hrun, rfl, ?_, ?_, ?_⟩, nofun⟩
    · simp [toNat_tickDown]
    · simp [toNat_tickDown]
    · exact (hkeep.trans ((keepsExcept_setEvent _ _).trans (keepsExcept_tickTimers _))).mono (by simp)
  | halt =>
    rw [State.unknownWord_halt _ (by simpa using hp)] at hstep
    exact ⟨_, hstep, hpc, nofun, fun _ => ⟨rfl, State.entered_event s, (hkeep.trans (keepsExcept_stop _ _)).mono (by simp)⟩⟩

/-- Settles O14: a cycle that stays running raised no FATAL_RANGE, so `pc_of_executes` gives its PC; the tick keeps PC and the
stack. -/
theorem pcAfterACycleIsTheTable : Obligations.PcAfterACycleIsTheTable := by
  refine ⟨fun s t i h hstep hrun => ?_, fun s t e hf hd hstep _ => ?_, fun s t nnn h hstep hrun => ?_⟩
  · obtain ⟨u, hu, rfl⟩ := exec_of_step h hstep
    have hkeep := keepsExcept_endCycle u
    rw [hkeep.run_eq (by simp)] at hrun
    rw [hkeep.pc_eq (by simp)]
    obtain ⟨d, -, rfl⟩ | ⟨hnone, -⟩ := exec_cases hu
    · cases hrun
    · exact pc_of_executes h.1 hnone hu
  · rw [step_of_unknown hf hd] at hstep
    cases hstep
    rw [(keepsExcept_unknownWord _).pc_eq (by simp), State.toNat_entered_pc hf]
  · obtain ⟨u, hu, rfl⟩ := exec_of_step h hstep
    have hkeep := keepsExcept_endCycle u
    rw [hkeep.run_eq (by simp)] at hrun
    rw [hkeep.stack_eq (by simp)]
    obtain ⟨d, -, rfl⟩ | ⟨hnone, -⟩ := exec_cases hu
    · cases hrun
    · rw [exec_callNnn (by simpa [rangeFault] using hnone)] at hu
      cases hu
      exact ⟨s.entered.pc, by simp, State.toNat_entered_pc h.1⟩

/-- Settles O15: each cycle is the handler's state, ticked (`step_of_executes_running`). -/
theorem timerInstructionsTickInTheSameCycle : Obligations.TimerInstructionsTickInTheSameCycle := by
  have hrun : ∀ {s : State} {i : Instr}, s.executes i → s.entered.run = .running := fun h => by
    obtain ⟨⟨hrun, -⟩, -⟩ := h
    simpa using hrun
  refine ⟨fun s x h => ⟨_, step_of_executes_running h (exec_ldDtVx ..) (hrun h), ?_⟩,
    fun s x h => ⟨_, step_of_executes_running h (exec_ldStVx ..) (hrun h), ?_⟩,
    fun s x h => ⟨_, step_of_executes_running h (exec_ldVxDt ..) (hrun h), ?_⟩⟩
  · simp [toNat_tickDown]
  · simp [toNat_tickDown]
  · simp [toNat_tickDown]

/-- Settles O17: the invariant holds of the entered state and every part of a cycle keeps it; the handler by `State.Inv.exec`. -/
theorem stepKeepsTheInvariant : Obligations.StepKeepsTheInvariant := by
  intro s t hinv hstep
  obtain rfl | rfl | ⟨d, rfl⟩ | ⟨hf, rfl⟩ | ⟨hf, i, u, hu, rfl⟩ := step_next_cases hstep
  · exact hinv
  · exact hinv.beginCycle
  · exact hinv.beginCycle
  · exact (hinv.entered hf).unknownWord
  · exact (hinv.exec hf hu).endCycle

/-- Settles O18: no memory is listed, the stack is empty and unbounded. -/
theorem resetMeetsTheInvariant : Obligations.ResetMeetsTheInvariant := by
  refine ⟨State.reset_mem_wf, ?_, ?_, ?_, nofun, nofun⟩ <;> decide

/-- Settles O20: every cycle is a chain of frames, and no frame lets `PROG_END` or the parameters change. -/
theorem stepKeepsProgEndAndParameters : Obligations.StepKeepsProgEndAndParameters := by
  intro s t hstep
  have hkeep : ∃ ps, KeepsExcept ps s t := by
    obtain rfl | rfl | ⟨d, rfl⟩ | ⟨-, rfl⟩ | ⟨-, i, u, hu, rfl⟩ := step_next_cases hstep
    · exact ⟨_, keepsExcept_clearOutputs s⟩
    · exact ⟨_, (keepsExcept_beginCycle s).trans (keepsExcept_stop _ _)⟩
    · exact ⟨_, (keepsExcept_beginCycle s).trans (keepsExcept_raiseRange _ _)⟩
    · exact ⟨_, (keepsExcept_entered s).trans (keepsExcept_unknownWord _)⟩
    · exact ⟨_, ((keepsExcept_entered s).trans (exec_keepsExcept hu)).trans (keepsExcept_endCycle u)⟩
  obtain ⟨ps, hk⟩ := hkeep
  exact ⟨hk.progEnd_eq, hk.cfg_eq⟩

end Sys2Proof.Proofs

/-! SUPPORT. Control transfer, arithmetic, keypad and timers (41_control_flow, 42_alu, 44_keypad_timers): the obligations O23,
O25 to O28, O30, O32 to O36, O40 to O42. -/

namespace Sys2Proof.Machine

/-! ### Flags as numbers (42_alu R136 to R140) -/

theorem toNat_flagByte (c : Bool) : (flagByte c).toNat = c.toNat := by cases c <;> rfl

theorem toNat_carryFlag (a b : Byte) : (carryFlag a b).toNat = if a.toNat + b.toNat > 255 then 1 else 0 := by
  rw [carryFlag, toNat_flagByte]
  split <;> simp [*]

theorem toNat_noBorrowFlag (a b : Byte) : (noBorrowFlag a b).toNat = if b.toNat > a.toNat then 0 else 1 := by
  rw [noBorrowFlag, toNat_flagByte]
  split <;> simp [*]

theorem toNat_lowBitFlag (a : Byte) : (lowBitFlag a).toNat = a.toNat % 2 := by
  rw [lowBitFlag, toNat_flagByte, BitVec.getLsbD, Nat.toNat_testBit]
  omega

theorem toNat_highBitFlag (a : Byte) : (highBitFlag a).toNat = a.toNat / 128 := by
  have := a.isLt
  rw [highBitFlag, toNat_flagByte, BitVec.getLsbD, Nat.toNat_testBit]
  omega

/-- 42_alu R142: a difference of bytes modulo 256. -/
theorem toNat_sub_byte (a b : Byte) :
    (a - b).toNat = if a.toNat ≥ b.toNat then a.toNat - b.toNat else a.toNat + 256 - b.toNat := by
  have := a.isLt
  have := b.isLt
  rw [BitVec.toNat_sub]
  split <;> omega

section
variable (s : State) {x : Nibble} (b f : Byte)

theorem State.reg_setRegThenFlag_dest (hx : x ≠ 0xF#4) : (s.setRegThenFlag x b f).reg x = b := by
  rw [State.reg_setRegThenFlag, if_neg hx, if_pos rfl]

theorem State.reg_setRegThenFlag_flag : (s.setRegThenFlag x b f).reg 0xF#4 = f := by
  rw [State.reg_setRegThenFlag, if_pos rfl]

theorem State.reg_setReg_same : (s.setReg x b).reg x = b := by
  rw [State.reg_setReg, if_pos rfl]

end

end Sys2Proof.Machine

namespace Sys2Proof.Proofs

open Machine

/-- Settles O23: the two arms of RET. -/
theorem returnPopsOrFallsThrough : Obligations.ReturnPopsOrFallsThrough :=
  ⟨fun s a rest hs => ⟨_, exec_ret_cons hs, rfl, rfl,
      ((keepsExcept_setStack s rest).trans (keepsExcept_setPc _ a)).mono (by simp)⟩,
    fun s hs => ⟨_, exec_ret_nil hs, rfl, keepsExcept_setEvent s _⟩⟩

/-- Settles O25: with room, CALL is a push and a jump. -/
theorem callPushesAndJumps : Obligations.CallPushesAndJumps :=
  fun s nnn hroom => ⟨_, exec_callNnn hroom, rfl, toNat_zext16_addr12 nnn,
    (keepsExcept_push s s.pc).trans (keepsExcept_setPc _ _) |>.mono (by simp)⟩

/-- Settles O26: RET pops what CALL pushed. -/
theorem callThenReturnRestoresPc : Obligations.CallThenReturnRestoresPc := by
  intro s nnn hroom
  have hret : exec .ret ((s.push s.pc).setPc (zext16 nnn)) =
      .next ((((s.push s.pc).setPc (zext16 nnn)).setStack s.stack).setPc s.pc) := exec_ret_cons rfl
  refine ⟨_, _, exec_callNnn hroom, hret, rfl, rfl, ?_⟩
  simp [KeepsExcept]

/-- Settles O27: the sum does not wrap (`toNat_zext16_add`). -/
theorem jumpWithOffsetAddsV0 : Obligations.JumpWithOffsetAddsV0 :=
  fun s nnn => ⟨_, exec_jpV0Nnn nnn s, toNat_zext16_add nnn _, keepsExcept_setPc s _⟩

/-- Settles O28: each skip is one write of PC. -/
theorem skipsComparingRegisters : Obligations.SkipsComparingRegisters :=
  fun s x y nn => ⟨⟨_, exec_seVxNn x nn s, rfl, keepsExcept_setPc s _⟩,
    ⟨_, exec_sneVxNn x nn s, ite_not _ _ _, keepsExcept_setPc s _⟩, ⟨_, exec_seVxVy x y s, rfl, keepsExcept_setPc s _⟩⟩

/-- Settles O30: each load is one register write. -/
theorem loadsWriteTheRegister : Obligations.LoadsWriteTheRegister :=
  fun s x y nn => ⟨⟨_, exec_ldVxNn x nn s, State.reg_setReg_same s nn, keepsExcept_setReg s x nn⟩,
    ⟨_, exec_ldVxVy x y s, State.reg_setReg_same s _, keepsExcept_setReg s x _⟩⟩

/-- Settles O32: each operation is one register write, and its bits are those of the library's bit-vector operation. -/
theorem logicIsBitwise : Obligations.LogicIsBitwise := by
  intro s x y
  refine ⟨⟨_, exec_orVxVy x y s, fun k => ?_, keepsExcept_setReg s x _⟩,
    ⟨_, exec_andVxVy x y s, fun k => ?_, keepsExcept_setReg s x _⟩,
    ⟨_, exec_xorVxVy x y s, fun k => ?_, keepsExcept_setReg s x _⟩⟩
  · rw [State.reg_setReg_same, BitVec.getLsbD_or]
  · rw [State.reg_setReg_same, BitVec.getLsbD_and]
  · rw [State.reg_setReg_same, BitVec.getLsbD_xor]

/-- Settles O33: the sum and the flag are the two writes of `setRegThenFlag`; the flag is `toNat_carryFlag`. -/
theorem addSetsCarry : Obligations.AddSetsCarry := by
  intro s x y
  refine ⟨_, exec_addVxVy x y s, fun hx => ?_, ?_, keepsExcept_setRegThenFlag s x _ _⟩
  · rw [State.reg_setRegThenFlag_dest _ _ _ hx, BitVec.toNat_add]
  · rw [State.reg_setRegThenFlag_flag, toNat_carryFlag]

/-- Settles O34: the difference by `toNat_sub_byte`, the flag by `toNat_noBorrowFlag`, with the operands in either order. -/
theorem subtractSetsNoBorrow : Obligations.SubtractSetsNoBorrow := by
  intro s x y
  refine ⟨⟨_, exec_subVxVy x y s, fun hx => ?_, ?_, keepsExcept_setRegThenFlag s x _ _⟩,
    ⟨_, exec_subnVxVy x y s, fun hx => ?_, ?_, keepsExcept_setRegThenFlag s x _ _⟩⟩
  · rw [State.reg_setRegThenFlag_dest _ _ _ hx, toNat_sub_byte]
  · rw [State.reg_setRegThenFlag_flag, toNat_noBorrowFlag]
  · rw [State.reg_setRegThenFlag_dest _ _ _ hx, toNat_sub_byte]
  · rw [State.reg_setRegThenFlag_flag, toNat_noBorrowFlag]

/-- Settles O35: the meanings take no Y; the dropped bit by `toNat_lowBitFlag` and `toNat_highBitFlag`. -/
theorem shiftsByOneSetTheDroppedBit : Obligations.ShiftsByOneSetTheDroppedBit := by
  intro s x y
  refine ⟨⟨_, exec_shrVx x y s, fun hx => ?_, ?_, keepsExcept_setRegThenFlag s x _ _⟩,
    ⟨_, exec_shlVx x y s, fun hx => ?_, ?_, keepsExcept_setRegThenFlag s x _ _⟩⟩
  · rw [State.reg_setRegThenFlag_dest _ _ _ hx, BitVec.toNat_ushiftRight, Nat.shiftRight_one]
  · rw [State.reg_setRegThenFlag_flag, toNat_lowBitFlag]
  · rw [State.reg_setRegThenFlag_dest _ _ _ hx, BitVec.toNat_shiftLeft, Nat.shiftLeft_eq, pow_one]
  · rw [State.reg_setRegThenFlag_flag, toNat_highBitFlag]

/-- Settles O36: `State.rnd` is the byte lined up, or the free value when there is none. -/
theorem randomIsMaskedByNn : Obligations.RandomIsMaskedByNn := by
  have hkeep := fun (s : State) (x : Nibble) (nn : Byte) =>
    (keepsExcept_setReg s x (s.rnd &&& nn)).trans (keepsExcept_nextRnd _)
  refine ⟨fun s x nn b rest hf => ⟨_, exec_rndVxNn x nn s, ?_, ?_, hkeep s x nn⟩,
    fun s x nn hf => ⟨_, exec_rndVxNn x nn s, ?_, ?_, hkeep s x nn⟩⟩
  · simp [State.rnd, hf]
  · simp [hf]
  · simp [State.rnd, hf]
  · simp

/-- Settles O40: the hypothesis shuts out the key-index fault. -/
theorem keySkipsTestTheKey : Obligations.KeySkipsTestTheKey := by
  intro s x h
  have hok : ¬((s.reg x).toNat > 15 ∧ s.cfg.keyIndexPolicy = .fault) := fun ⟨hgt, hp⟩ => by
    obtain hle | hmask := h
    · omega
    · rw [hp] at hmask
      cases hmask
  exact ⟨⟨_, exec_skpVx hok, rfl, keepsExcept_setPc s _⟩, ⟨_, exec_sknpVx hok, rfl, keepsExcept_setPc s _⟩⟩

/-- Settles O41: the two answers of `State.firstKey`. -/
theorem waitForKeyTakesTheLeastOrWaits : Obligations.WaitForKeyTakesTheLeastOrWaits := by
  refine ⟨fun s x k hk hdown hleast => ?_, fun s x hnone => ?_⟩
  · have hfirst : s.firstKey = some k := (State.firstKey_eq_some s k).2 ⟨hk, hdown, hleast⟩
    refine ⟨_, exec_ldVxK_some x hfirst, ?_, keepsExcept_setReg s x _⟩
    rw [State.reg_setReg_same, BitVec.toNat_ofNat]
    omega
  · exact ⟨_, exec_ldVxK_none x ((State.firstKey_eq_none s).2 hnone), rfl, rfl,
      (keepsExcept_setPc s _).trans (keepsExcept_setEvent _ _)⟩

/-- Settles O42: each copy is one write. -/
theorem timerCopies : Obligations.TimerCopies :=
  fun s x => ⟨⟨_, exec_ldVxDt x s, State.reg_setReg_same s s.dt, keepsExcept_setReg s x _⟩,
    ⟨_, exec_ldDtVx x s, rfl, keepsExcept_setDt s _⟩, ⟨_, exec_ldStVx x s, rfl, keepsExcept_setSt s _⟩⟩

end Sys2Proof.Proofs

/-! SUPPORT. Index register and memory (45_index_memory): the obligations O43 to O47. -/

namespace Sys2Proof.Machine

/-! ### Index register -/

/-- 45_index_memory R172: 5 * 255 is below 65536. -/
theorem toNat_zext16_byte_mul_five (b : Byte) : (zext16 b * 5#16).toNat = 5 * b.toNat := by
  have := b.isLt
  rw [BitVec.toNat_mul, toNat_zext16_byte]
  simp
  omega

/-! ### Blocks -/

/-- A stored block reads back byte by byte. -/
theorem State.read_store_add (s : State) (a k : Nat) (bytes : List Byte) (hk : k < bytes.length) :
    (s.store a bytes).mem.read (a + k) = bytes.getD k 0x00#8 := by
  rw [State.read_store, if_pos (by omega), Nat.add_sub_cancel_left]

/-- 45_index_memory R175: after the store of V0 to V(count-1) at `a`, V`k` stands at `a` + `k`. -/
theorem State.read_store_firstRegs (s : State) (a count : Nat) (k : Nibble) (hk : k.toNat < count) :
    (s.store a (s.firstRegs count)).mem.read (a + k.toNat) = s.reg k := by
  rw [State.read_store_add _ _ _ _ (by simpa), State.getD_firstRegs _ _ _ hk, BitVec.ofNat_toNat, BitVec.setWidth_eq]

/-- 45_index_memory R176: after the load of V0 to V(count-1) from `a`, V`k` holds the byte at `a` + `k`. -/
theorem State.reg_setRegs_bytesAt (s : State) (a count : Nat) (hcount : count ≤ 16) (k : Nibble) (hk : k.toNat < count) :
    (s.setRegs 0 (s.bytesAt a count)).reg k = s.mem.read (a + k.toNat) := by
  rw [State.reg_setRegs _ _ _ (by simpa), if_pos (by simpa), Nat.sub_zero, State.getD_bytesAt _ _ _ _ hk]

/-- 45_index_memory R174: the digits of a byte. -/
theorem toNat_getD_bcdDigits (b : Byte) :
    ((bcdDigits b).getD 0 0x00#8).toNat = b.toNat / 100 ∧ ((bcdDigits b).getD 1 0x00#8).toNat = b.toNat / 10 % 10 ∧
    ((bcdDigits b).getD 2 0x00#8).toNat = b.toNat % 10 := by
  have := b.isLt
  simp [bcdDigits]
  omega

/-- 20_memory R54: the number of a word, high byte first. -/
theorem toNat_wordOfBytes (hi lo : Byte) : (wordOfBytes hi lo).toNat = hi.toNat * 256 + lo.toNat :=
  toNat_append_eq_add hi lo

end Sys2Proof.Machine

namespace Sys2Proof.Proofs

open Machine

/-- Settles O43: each is one write of I; only FX1E can wrap. -/
theorem indexRegisterWrites : Obligations.IndexRegisterWrites := by
  intro s x nnn
  refine ⟨⟨_, exec_ldINnn nnn s, toNat_zext16_addr12 nnn, keepsExcept_setI s _⟩,
    ⟨_, exec_addIVx x s, ?_, keepsExcept_setI s _⟩,
    ⟨_, exec_ldFVx x s, toNat_zext16_byte_mul_five _, keepsExcept_setI s _⟩⟩
  rw [State.setI_i, BitVec.toNat_add, toNat_zext16_byte]

/-- Settles O44: the store of the three digits (`toNat_getD_bcdDigits`), read back by `State.read_store_add`. -/
theorem bcdStoresTheDigits : Obligations.BcdStoresTheDigits := by
  intro s x hrange
  obtain ⟨h0, h1, h2⟩ := toNat_getD_bcdDigits (s.reg x)
  have hread := fun k hk => State.read_store_add s s.i.toNat k (bcdDigits (s.reg x)) hk
  refine ⟨_, exec_ldBVx x hrange, ?_, ?_, ?_, keepsExcept_store s s.i.toNat (bcdDigits (s.reg x))⟩
  · rw [← h0, ← hread 0 (by simp), Nat.add_zero]
  · rw [← h1, ← hread 1 (by simp)]
  · rw [← h2, ← hread 2 (by simp)]

/-- Settles O45: `State.read_store_firstRegs`. -/
theorem blockStoreWritesTheRegisters : Obligations.BlockStoreWritesTheRegisters := by
  intro s x hrange
  have hkeep := keepsExcept_store s s.i.toNat (s.firstRegs (x.toNat + 1))
  rw [State.length_firstRegs] at hkeep
  exact ⟨_, exec_ldMemVx hrange, fun k hk => State.read_store_firstRegs s _ _ k (by omega), hkeep⟩

/-- Settles O46: `State.reg_setRegs_bytesAt`. -/
theorem blockLoadReadsTheRegisters : Obligations.BlockLoadReadsTheRegisters := by
  intro s x hrange
  have hcount : x.toNat + 1 ≤ 16 := x.isLt
  have hkeep := keepsExcept_setRegs s (s.bytesAt s.i.toNat (x.toNat + 1)) (by simpa)
  rw [State.length_bytesAt] at hkeep
  exact ⟨_, exec_ldVxMem hrange, fun k hk => State.reg_setRegs_bytesAt s _ _ hcount k (by omega), hkeep⟩

/-- Settles O47: the fetch reads at I the bytes of V0 and V1. -/
theorem storedWordIsFetched : Obligations.StoredWordIsFetched := by
  intro s x hx hrange
  have hread := State.read_store_firstRegs s s.i.toNat (x.toNat + 1)
  have h0 := hread 0x0#4 (by simp)
  have h1 := hread 0x1#4 (by simp; omega)
  refine ⟨_, exec_ldMemVx hrange, ?_⟩
  rw [State.nextWord, toNat_wordOfBytes]
  exact congrArg₂ (fun hi lo : Byte => hi.toNat * 256 + lo.toNat) h0 h1

end Sys2Proof.Proofs

/-! SUPPORT. DXYN (43_display): the obligations O38 and O39. -/

namespace Sys2Proof.Machine

/-- 43_display R152: DXYN flips the covered pixels and no other. -/
theorem State.pixel_draw (s : State) (x y n : Nibble) (px py : Nat) :
    (s.draw x y n).fb.pixel px py ≠ s.fb.pixel px py ↔
      SpriteCovers s.mem s.i.toNat (s.reg x).toNat (s.reg y).toNat n.toNat px py :=
  have hn : n.toNat ≤ 32 := by have := n.isLt; omega
  (drawSprite_spec s s.i.toNat n.toNat (s.reg x).toNat (s.reg y).toNat hn s.fb).1 px py

/-- 43_display R152: VF after DXYN is 1 exactly when some covered pixel was 1. -/
theorem State.flag_draw (s : State) (x y n : Nibble) :
    (s.draw x y n).reg 0xF#4 = 0x01#8 ↔ ∃ px py,
      SpriteCovers s.mem s.i.toNat (s.reg x).toNat (s.reg y).toNat n.toNat px py ∧ s.fb.pixel px py = true := by
  have hn : n.toNat ≤ 32 := by have := n.isLt; omega
  rw [← (drawSprite_spec s s.i.toNat n.toNat (s.reg x).toNat (s.reg y).toNat hn s.fb).2, State.draw,
    State.reg_setReg, if_pos rfl]
  cases (drawSprite (s.reg x).toNat (s.reg y).toNat (s.bytesAt s.i.toNat n.toNat) s.fb).2 <;> decide

theorem SpriteCovers.in_grid {m : Memory} {base vx vy rows px py : Nat} (h : SpriteCovers m base vx vy rows px py) :
    px < 64 ∧ py < 32 := by
  obtain ⟨row, -, col, -, -, rfl, rfl⟩ := h
  exact ⟨Nat.mod_lt _ (by decide), Nat.mod_lt _ (by decide)⟩

/-- The cover depends on the sprite bytes only. -/
theorem spriteCovers_congr {m m' : Memory} {base rows : Nat} (h : ∀ k, k < rows → m'.read (base + k) = m.read (base + k))
    (vx vy px py : Nat) : SpriteCovers m' base vx vy rows px py ↔ SpriteCovers m base vx vy rows px py := by
  refine exists_congr fun row => and_congr_right fun hrow => ?_
  rw [h row hrow]

/-- Some covered pixel was 1 exactly when some pixel of the grid went from 1 to 0. -/
theorem State.exists_cleared_iff (s : State) (x y n : Nibble) :
    (∃ px py, px < 64 ∧ py < 32 ∧ s.fb.pixel px py = true ∧ (s.draw x y n).fb.pixel px py = false) ↔
      ∃ px py, SpriteCovers s.mem s.i.toNat (s.reg x).toNat (s.reg y).toNat n.toNat px py ∧ s.fb.pixel px py = true := by
  refine exists_congr fun px => exists_congr fun py => ?_
  rw [← State.pixel_draw]
  constructor
  · rintro ⟨-, -, h1, h0⟩
    exact ⟨by rw [h1, h0]; decide, h1⟩
  · rintro ⟨hne, h1⟩
    obtain ⟨hx, hy⟩ := ((State.pixel_draw ..).1 hne).in_grid
    exact ⟨hx, hy, h1, by simpa [h1] using hne⟩

end Sys2Proof.Machine

namespace Sys2Proof.Proofs

open Machine

/-- Settles O38: the pixels by `State.pixel_draw`; VF is a flag, set exactly when a covered pixel was 1, which is when one went from
1 to 0. -/
theorem drawFlipsTheCoveredPixels : Obligations.DrawFlipsTheCoveredPixels := by
  intro s x y n hrange
  refine ⟨_, exec_drwVxVyN x y hrange, fun px py _ _ => State.pixel_draw s x y n px py, ?_, keepsExcept_draw s x y n⟩
  rw [State.exists_cleared_iff, ← State.flag_draw]
  obtain ⟨c, hc⟩ := exists_flagByte_of_exec rfl (by simp [rangeFault]; omega) (exec_drwVxVyN x y hrange)
  cases c
  · exact .inr ⟨hc, by rw [hc]; decide⟩
  · exact .inl ⟨hc, hc⟩

/-- Settles O39: both draws cover the same pixels, so a covered pixel is flipped twice and every other one never. -/
theorem drawTwiceRestoresTheFramebuffer : Obligations.DrawTwiceRestoresTheFramebuffer := by
  intro s s' x y n hrange hi hx hy hmem
  refine ⟨_, exec_drwVxVyN x y hrange, fun px py _ _ => State.pixel_draw s x y n px py, State.flag_draw s x y n,
    fun hfb => ⟨_, exec_drwVxVyN x y (by rwa [hi]), ?_, ?_⟩⟩
  · refine Frame.ext_pixel fun px py _ _ => ?_
    have h1 := State.pixel_draw s x y n px py
    have h2 := State.pixel_draw s' x y n px py
    rw [hi, hx, hy, spriteCovers_congr hmem, ← h1, hfb] at h2
    by_cases hc : (s.draw x y n).fb.pixel px py ≠ s.fb.pixel px py
    · rw [Bool.eq_not.2 (h2.2 hc), Bool.eq_not.2 hc, Bool.not_not]
    · rw [not_not.1 (h2.not.2 hc), not_not.1 hc]
  · rw [State.flag_draw, hi, hx, hy, hfb]
    refine exists_congr fun px => exists_congr fun py => ?_
    rw [spriteCovers_congr hmem]
    refine and_congr_right fun hc => ?_
    rw [Bool.eq_not.2 ((State.pixel_draw s x y n px py).2 hc), Bool.not_eq_true']

end Sys2Proof.Proofs

/-! SUPPORT. Reset and load (10_state R41, 70_reset_and_hazards R210, R213): the machine before the load, what the load makes of
it, and the obligations O19 and O48 to O50. -/

namespace Sys2Proof.Machine

/-- Memory before the load: MEM_INIT, then FONT_TABLE at 0 (70_reset_and_hazards R210). -/
def initialMemory (font memInit : List Byte) : Memory :=
  Memory.writeList (Memory.writeList [] 0 (memInit.take memSize)) 0 (font.take 80)

/-- The machine of R210 before its load: `State.resetWith` loads the image into it. -/
def beforeLoad (cfg : Config) (font memInit : List Byte) (fbInit : Frame) : State :=
  { State.reset with mem := initialMemory font memInit, fb := fbInit, cfg := cfg }

section
variable (cfg : Config) {image : List Byte} (font memInit : List Byte) (fbInit : Frame)

/-- 70_reset_and_hazards R213: an image that fits is stored at 0x200, and `PROG_END` is set past it. -/
theorem resetWith_of_le (h : image.length ≤ 3584) :
    State.resetWith cfg image font memInit fbInit =
      (((beforeLoad cfg font memInit fbInit).store 0x200 image).setProgEnd (0x200 + image.length), .ok) :=
  if_neg (Nat.not_lt.2 h)

/-- 70_reset_and_hazards R213: of an image that does not fit nothing is written. -/
theorem resetWith_of_gt (h : image.length > 3584) :
    State.resetWith cfg image font memInit fbInit = (beforeLoad cfg font memInit fbInit, .oversize) :=
  if_pos h

/-- The empty image leaves the machine as it is before the load. -/
theorem resetWith_nil : State.resetWith cfg [] font memInit fbInit = (beforeLoad cfg font memInit fbInit, .ok) :=
  resetWith_of_le cfg font memInit fbInit (Nat.zero_le _)

theorem initialMemory_wf : (initialMemory font memInit).wf = true := by
  have hfont : (font.take 80).length ≤ 80 := List.length_take_le _ _
  have hinit : (memInit.take memSize).length ≤ 4096 := List.length_take_le _ _
  exact Memory.wf_writeList (Memory.wf_writeList State.reset_mem_wf (by omega)) (by omega)

/-- 70_reset_and_hazards R210: the font below 0x050, MEM_INIT above it; past the address space nothing is listed. -/
theorem read_initialMemory (hfont : font.length = 80) (hinit : memInit.length = 4096) (a : Nat) :
    (initialMemory font memInit).read a =
      if a < 80 then font.getD a 0x00#8 else if a < 4096 then memInit.getD a 0x00#8 else unlistedByte a := by
  have hfont' : font.take 80 = font := List.take_of_length_le hfont.le
  have hinit' : memInit.take memSize = memInit := List.take_of_length_le hinit.le
  rw [initialMemory, hfont', hinit', Memory.read_writeList, Memory.read_writeList, hfont, hinit]
  simp [Memory.read]

@[simp] theorem beforeLoad_progEnd : (beforeLoad cfg font memInit fbInit).progEnd = 0x200 := rfl

@[simp] theorem beforeLoad_pc : (beforeLoad cfg font memInit fbInit).pc = 0x0200#16 := rfl

theorem beforeLoad_reg (x : Nibble) : (beforeLoad cfg font memInit fbInit).reg x = 0x00#8 := by
  simp [beforeLoad, State.reset, State.reg]

theorem beforeLoad_inv : (beforeLoad cfg font memInit fbInit).Inv :=
  ⟨initialMemory_wf font memInit, by simp, by simp, by simp, nofun, fun _ _ => Nat.zero_le _⟩

/-- A load of an image that fits keeps the invariant. -/
theorem State.Inv.load {s : State} (h : s.Inv) (hlen : image.length ≤ 3584) :
    ((s.store 0x200 image).setProgEnd (0x200 + image.length)).Inv := by
  obtain ⟨hwf, -, -, hrest⟩ := h
  exact ⟨Memory.wf_writeList hwf (by omega), Nat.le_add_right _ _, by rw [State.setProgEnd_progEnd]; omega, hrest⟩

end

/-- Filling memory with what it reads as unlisted lists nothing (log entries 8, 9). -/
theorem initialMemory_unlisted : initialMemory fontTable ((List.range 4096).map unlistedByte) = [] := by
  refine Memory.eq_of_read_eq (initialMemory_wf _ _) State.reset_mem_wf fun a => ?_
  rw [read_initialMemory _ _ (by decide) (by simp)]
  split_ifs with hfont hmem
  · rfl
  · simp [hmem, Memory.read]
  · rfl

end Sys2Proof.Machine

namespace Sys2Proof.Proofs

open Machine

/-- Settles O19: the machine before the load meets the invariant, and the load keeps it or writes nothing. -/
theorem resetAndLoadMeetTheInvariant : Obligations.ResetAndLoadMeetTheInvariant := by
  intro cfg image font memInit fbInit
  have hinv := beforeLoad_inv cfg font memInit fbInit
  by_cases hlen : image.length ≤ 3584
  · rw [resetWith_of_le _ _ _ _ hlen]
    exact hinv.load hlen
  · rw [resetWith_of_gt _ _ _ _ (Nat.not_le.1 hlen)]
    exact hinv

/-- Settles O48: the load is one store over `read_initialMemory`; every other part is that of the machine before the load. -/
theorem resetAndLoadLeaveTheTable : Obligations.ResetAndLoadLeaveTheTable := by
  intro cfg image font memInit fbInit hlen hfont hinit
  refine ⟨_, resetWith_of_le cfg font memInit fbInit hlen, rfl, fun x => ?_, rfl, rfl, rfl, rfl, rfl, rfl, rfl, rfl,
    fun a ha => ?_⟩
  · rw [State.setProgEnd_reg, State.store_reg, beforeLoad_reg]
  · have hbefore := read_initialMemory font memInit hfont hinit a
    rw [if_pos ha] at hbefore
    rw [State.setProgEnd_mem, State.read_store]
    split
    · rfl
    · exact hbefore

/-- Settles O49: both results are the machine before the load, whose PC is its `PROG_END`. -/
theorem oversizedImageIsRejected : Obligations.OversizedImageIsRejected := by
  intro cfg image font memInit fbInit hlen
  exact ⟨_, _, resetWith_of_gt cfg font memInit fbInit hlen, resetWith_nil cfg font memInit fbInit, rfl,
    step_of_progEnd_le rfl (by simp), rfl⟩

/-- Settles O50: the initial memory lists nothing (`initialMemory_unlisted`). -/
theorem resetIsAnInstanceOfTheLoad : Obligations.ResetIsAnInstanceOfTheLoad := by
  have hbefore : beforeLoad Config.default fontTable ((List.range 4096).map unlistedByte) Frame.clear = State.reset := by
    rw [beforeLoad, initialMemory_unlisted]
    rfl
  exact (resetWith_nil ..).trans (congrArg (·, LoadResult.ok) hbefore)

end Sys2Proof.Proofs
